-- ==== Sys2Proof/Word.lean ====
section
/-! DEFINITION. The two data widths of the Atlas 2k: the 16-bit word of every register, instruction and bus
transfer (spec/00_scope.md R3, R4) and the byte that memory is addressed in (spec/20_memory.md R50). -/

namespace Sys2Proof

/-- One byte. -/
abbrev Byte := BitVec 8

/-- One 16-bit word; bit 0 is the least significant (R4). -/
abbrev Word := BitVec 16

end Sys2Proof
end

