-- ==== Sys2Proof/Machine/Bits.lean ====
section
/-! DEFINITION. Bit and byte helpers of the rules' notation (spec/00_scope.md R4, R5). -/

namespace Sys2Proof.Machine

/-- `w` with bit `i` set to `v`. -/
def setBit (w : Word) (i : Nat) (v : Bool) : Word :=
  if v then w ||| (1#16 <<< i) else w &&& ~~~(1#16 <<< i)

/-- The two bytes of a word exchanged: `w[7:0] & w[15:8]`. -/
def swapBytes (w : Word) : Word := w.extractLsb' 0 8 ++ w.extractLsb' 8 8

/-- The bits of `old` outside `mask` with the bits of `new` inside it. -/
def mergeBits (old new mask : Word) : Word := (old &&& ~~~mask) ||| (new &&& mask)

/-- `v[15:1] & 0`: a value as it is written to the program counter (spec/10_state.md R14). -/
def clearBit0 (v : Word) : Word := v &&& 0xFFFE#16

/-- The exclusive OR of all sixteen bits (spec/47_bit_manipulation.md R226). -/
def parity (w : Word) : Bool := (List.range 16).foldl (fun p i => p ^^ w.getLsbD i) false

/-- The number 1 or 0 of a bit. -/
def bitNat (b : Bool) : Nat := if b then 1 else 0

end Sys2Proof.Machine
end

