-- ==== Sys2Proof/Syntax.lean ====
section
/-! DEFINITION. The instruction set: one constructor of `Instr` for each of the fifty rows of spec/opcode_table.json
(spec/30_encoding.md R94). Operand fields that name something are inductive types; immediates are bit vectors of
their field's width (R90). The conditions of R94 that a type cannot carry are in WellFormed.lean. -/

namespace Sys2Proof

/-- A general register of the bank in force, R0 to R7 (spec/10_state.md R10, R11). -/
inductive Reg where
  | r0 | r1 | r2 | r3 | r4 | r5 | r6 | r7
  deriving DecidableEq, Repr, Inhabited

/-- The sixteen condition codes (R93). -/
inductive Cond where
  | eq | ne | cs | cc | mi | pl | os | oc | hi | ls | ge | lt | gt | le | ts | al
  deriving DecidableEq, Repr, Inhabited

/-- The eight shift types of SFT (R82). -/
inductive ShiftType where
  | swp | asr | rol | ror | lsl | lsr | rlc | rrc
  deriving DecidableEq, Repr, Inhabited

/-- The part of the MSR that LDSR and STSR transfer (spec/43_msr_access.md R176), options A B. -/
inductive MsrPart where
  | all | aluFlags | sysFlags | usrFlags
  deriving DecidableEq, Repr, Inhabited

/-- The flag set that STAF writes (R179), option B. -/
inductive FlagSet where
  | sys | usr
  deriving DecidableEq, Repr, Inhabited

/-- The mode option of STPC (spec/42_pc_access.md R167): none, X or U. X with U is a reserved word (R172). -/
inductive StpcMode where
  | keep | exchange | user
  deriving DecidableEq, Repr, Inhabited

/-- The three index modes of LDR and STR (spec/44_memory_access.md R194): bits P W = 00, 01, 11. -/
inductive Indexing where
  | pre | preWriteback | postWriteback
  deriving DecidableEq, Repr, Inhabited

/-- The offset of LDR and STR (R191): a register (I = 0) or an unsigned 3-bit immediate (I = 1). -/
inductive Offset where
  | reg (r : Reg)
  | imm (n : BitVec 3)
  deriving DecidableEq, Repr, Inhabited

/-- The coprocessor an instruction addresses (R88). -/
inductive Cp where
  | cp0 | cp1
  deriving DecidableEq, Repr, Inhabited

/-- A coprocessor register number C0 to C7, handed to the coprocessor as it stands (R88). -/
abbrev CReg := BitVec 3

/-- The instructions. `sf` is the S bit. -/
inductive Instr where
  | inc (rd ra : Reg) (sf : Bool) (imm : BitVec 3)
  | dec (rd ra : Reg) (sf : Bool) (imm : BitVec 3)
  | add (rd ra : Reg) (sf : Bool) (rb : Reg)
  | adc (rd ra : Reg) (sf : Bool) (rb : Reg)
  | sub (rd ra : Reg) (sf : Bool) (rb : Reg)
  | neg (rd ra : Reg) (sf : Bool)
  | sbc (rd ra : Reg) (sf : Bool) (rb : Reg)
  | nec (rd ra : Reg) (sf : Bool)
  | cmp (ra rb : Reg)
  | ldsr (rd : Reg) (part : MsrPart)
  | cpx (notC orZ : Bool) (ra rb : Reg)
  | stsr (part : MsrPart) (rb : Reg)
  | staf (set : FlagSet) (t n o c z : Bool)
  | and (rd ra : Reg) (sf : Bool) (rb : Reg)
  | stub (rdUsr raSys : Reg) (sf : Bool)
  | orr (rd ra : Reg) (sf : Bool) (rb : Reg)
  | ldub (rdSys raUsr : Reg) (sf : Bool)
  | eor (rd ra : Reg) (sf : Bool) (rb : Reg)
  | nand (rd ra : Reg) (sf : Bool) (rb : Reg)
  | bic (rd ra : Reg) (sf : Bool) (rb : Reg)
  | teq (ra rb : Reg)
  | stpc (mode : StpcMode) (ra : Reg) (link ie : Bool)
  | tst (ra rb : Reg)
  | ldpc (rd : Reg)
  | sft (rd ra : Reg) (sf : Bool) (type : ShiftType)
  | ldr (ix : Indexing) (up : Bool) (rd ra : Reg) (off : Offset)
  | str (ix : Indexing) (up : Bool) (rd ra : Reg) (off : Offset)
  | swp (rd ra rb : Reg)
  | b (cond : Cond) (off : BitVec 9)
  | bl (cond : Cond) (off : BitVec 9)
  | ldil (rd : Reg) (imm : BitVec 8)
  | ldih (rd : Reg) (imm : BitVec 8)
  | cbr (rd ra : Reg) (bit : BitVec 4)
  | sbr (rd ra : Reg) (bit : BitVec 4)
  | ldb (rd ra : Reg) (bit : BitVec 4)
  | stb (ra : Reg) (bit : BitVec 4)
  | stbi (ra : Reg) (bit : BitVec 4)
  | spr (ra : Reg)
  | spri (ra : Reg)
  | stbr (ra ri : Reg)
  | stbri (ra ri : Reg)
  | cdp (cp : Cp) (ca cb : CReg) (cmd : BitVec 3)
  | mrc (cp : Cp) (rd : Reg) (ca : CReg) (cmd : BitVec 3)
  | mcr (cp : Cp) (cd : CReg) (ra : Reg) (cmd : BitVec 3)
  | mul (rd ra rb : Reg)
  | sleep (tag : BitVec 9)
  | rba (link : Bool) (cond : Cond) (rb : Reg)
  | rbr (link : Bool) (cond : Cond) (rb : Reg)
  | mv (rd : Reg) (cond : Cond) (rb : Reg)
  | syscall (tag : BitVec 10)
  deriving DecidableEq, Repr, Inhabited

end Sys2Proof
end

