-- ==== Sys2Proof/WellFormed.lean ====
section
/-! DEFINITION. The conditions of the opcode table (spec/30_encoding.md R94) that the types of Syntax.lean leave open.
An instruction that breaks one has no encoding of its own: its word is another instruction (R83) or reserved (R105). -/

namespace Sys2Proof

/-- Whether an index mode writes the base register back (R192, bit W). -/
def Indexing.writesBack : Indexing → Bool
  | .pre => false
  | .preWriteback => true
  | .postWriteback => true

/-- The conditions of R94, row by row. -/
def Instr.WellFormed : Instr → Bool
  | .sub _ ra _ rb => decide (ra ≠ rb)
  | .sbc _ ra _ rb => decide (ra ≠ rb)
  | .and _ ra _ rb => decide (ra ≠ rb)
  | .orr _ ra _ rb => decide (ra ≠ rb)
  | .ldr ix _ rd ra _ => !ix.writesBack || decide (rd ≠ ra)
  | .swp rd _ rb => decide (rd ≠ rb)
  | .inc .. | .dec .. | .add .. | .adc .. | .neg .. | .nec .. | .cmp .. | .ldsr .. | .cpx .. | .stsr .. | .staf ..
  | .stub .. | .ldub .. | .eor .. | .nand .. | .bic .. | .teq .. | .stpc .. | .tst .. | .ldpc .. | .sft .. | .str ..
  | .b .. | .bl .. | .ldil .. | .ldih .. | .cbr .. | .sbr .. | .ldb .. | .stb .. | .stbi .. | .spr .. | .spri ..
  | .stbr .. | .stbri .. | .cdp .. | .mrc .. | .mcr .. | .mul .. | .sleep .. | .rba .. | .rbr .. | .mv ..
  | .syscall .. => true

end Sys2Proof
end

