-- ==== Sys2Proof/Decode.lean ====
section
/-! DEFINITION. The decoder, total on any word and any bytes, refusing every reserved word of spec/30_encoding.md R105
by name, and the encoder, both written from the formats R82 to R89 and the opcode map R94. -/

namespace Sys2Proof

/-- Why a word has no instruction: the rows of R105. A refusal is safe: the spec gives these words no meaning. -/
inductive Reserved where
  /-- CMP, TEQ or TST with a non-zero Rd field. -/
  | compareRd
  /-- CPX with bit 7 set. -/
  | cpxBit7
  /-- LDSR with bit 4 set or bits 2:0 not zero. -/
  | ldsrUnusedBits
  /-- STSR with bits 9:7 not zero. -/
  | stsrUnusedBits
  /-- STAF with bit 9 set or bit 6 clear. -/
  | stafFixedBits
  /-- LDPC with a non-zero Ra or Rb field. -/
  | ldpcUnusedBits
  /-- STPC with bits 9:8 not zero. -/
  | stpcUnusedBits
  /-- STPC with X and U together (R172). -/
  | stpcExchangeAndUser
  /-- A memory access with P = 1, W = 0 that is not SWP. -/
  | memoryForm
  /-- LDR with write-back into its own destination (R192). -/
  | ldrWritebackIntoRd
  /-- SWP with Rd = Rb (R197). -/
  | swpRdIsRb
  /-- Bit manipulation with parity and register index together. -/
  | parityWithIndex
  /-- SPR or SPRI with bits 3:0 not zero. -/
  | parityUnusedBits
  /-- STBR or STBRI with bit 3 set. -/
  | indexUnusedBit
  /-- CDP with bit 3 set. -/
  | cdpUnusedBit
  /-- MUL with bit 3 set, the removed MAC (R261). -/
  | mulUnusedBit
  /-- Fewer than two bytes were given to the decoder: no instruction is shorter (R80). -/
  | tooFewBytes
  deriving DecidableEq, Repr, Inhabited

/-! ## Operand fields -/

/-- A 3-bit register field (R82). -/
def Reg.ofBits (f : BitVec 3) : Reg :=
  match f.toNat with
  | 0 => .r0 | 1 => .r1 | 2 => .r2 | 3 => .r3 | 4 => .r4 | 5 => .r5 | 6 => .r6 | _ => .r7

def Reg.toBits : Reg → BitVec 3
  | .r0 => 0 | .r1 => 1 | .r2 => 2 | .r3 => 3 | .r4 => 4 | .r5 => 5 | .r6 => 6 | .r7 => 7

/-- A condition code (R93). -/
def Cond.ofBits (f : BitVec 4) : Cond :=
  match f.toNat with
  | 0 => .eq | 1 => .ne | 2 => .cs | 3 => .cc | 4 => .mi | 5 => .pl | 6 => .os | 7 => .oc
  | 8 => .hi | 9 => .ls | 10 => .ge | 11 => .lt | 12 => .gt | 13 => .le | 14 => .ts | _ => .al

def Cond.toBits : Cond → BitVec 4
  | .eq => 0 | .ne => 1 | .cs => 2 | .cc => 3 | .mi => 4 | .pl => 5 | .os => 6 | .oc => 7
  | .hi => 8 | .ls => 9 | .ge => 10 | .lt => 11 | .gt => 12 | .le => 13 | .ts => 14 | .al => 15

/-- The shift type in the Rb field of SFT (R82). -/
def ShiftType.ofBits (f : BitVec 3) : ShiftType :=
  match f.toNat with
  | 0 => .swp | 1 => .asr | 2 => .rol | 3 => .ror | 4 => .lsl | 5 => .lsr | 6 => .rlc | _ => .rrc

def ShiftType.toBits : ShiftType → BitVec 3
  | .swp => 0 | .asr => 1 | .rol => 2 | .ror => 3 | .lsl => 4 | .lsr => 5 | .rlc => 6 | .rrc => 7

/-- Options A B of LDSR and STSR (R176). -/
def MsrPart.ofBits (f : BitVec 2) : MsrPart :=
  match f.toNat with
  | 0 => .all | 1 => .aluFlags | 2 => .sysFlags | _ => .usrFlags

def MsrPart.toBits : MsrPart → BitVec 2
  | .all => 0 | .aluFlags => 1 | .sysFlags => 2 | .usrFlags => 3

def FlagSet.ofBit (u : Bool) : FlagSet := if u then .usr else .sys

def FlagSet.toBit : FlagSet → Bool
  | .usr => true | .sys => false

def Cp.ofBit (n : Bool) : Cp := if n then .cp1 else .cp0

def Cp.toBit : Cp → Bool
  | .cp0 => false | .cp1 => true

/-- Bits P, W of an index mode (R194). -/
def Indexing.bitP : Indexing → Bool
  | .postWriteback => true | .pre => false | .preWriteback => false

/-- Bits X, U of the STPC mode option (R167). -/
def StpcMode.bitX : StpcMode → Bool
  | .exchange => true | .keep => false | .user => false

def StpcMode.bitU : StpcMode → Bool
  | .user => true | .keep => false | .exchange => false

/-- Bit I and bits 2:0 of an offset (R191). -/
def Offset.ofBits (immediate : Bool) (f : BitVec 3) : Offset :=
  if immediate then .imm f else .reg (Reg.ofBits f)

def Offset.bitI : Offset → Bool
  | .imm _ => true | .reg _ => false

def Offset.field : Offset → BitVec 3
  | .imm n => n | .reg r => r.toBits

/-- The register field whose lowest bit is bit `lo`. -/
def regField (w : Word) (lo : Nat) : Reg := Reg.ofBits (w.extractLsb' lo 3)

/-! ## The decoder -/

/-- Class 00 with CMD = CMP: compare, or LDSR when S = 0 (R83, R105). -/
def decodeCmp (w : Word) : Except Reserved Instr :=
  if w.getLsbD 3 then
    if w.extractLsb' 7 3 = 0#3 then .ok (.cmp (regField w 4) (regField w 0)) else .error .compareRd
  else if w.getLsbD 4 || w.extractLsb' 0 3 != 0#3 then .error .ldsrUnusedBits
  else .ok (.ldsr (regField w 7) (MsrPart.ofBits (w.extractLsb' 5 2)))

/-- Class 00 with CMD = CPX: extended compare, or STSR or STAF when S = 0 (R83, R105). -/
def decodeCpx (w : Word) : Except Reserved Instr :=
  if w.getLsbD 3 then
    if w.getLsbD 7 then .error .cpxBit7
    else .ok (.cpx (w.getLsbD 9) (w.getLsbD 8) (regField w 4) (regField w 0))
  else if w.getLsbD 4 then
    if w.getLsbD 9 || !w.getLsbD 6 then .error .stafFixedBits
    else .ok (.staf (FlagSet.ofBit (w.getLsbD 5)) (w.getLsbD 8) (w.getLsbD 7) (w.getLsbD 2) (w.getLsbD 1) (w.getLsbD 0))
  else if w.extractLsb' 7 3 = 0#3 then .ok (.stsr (MsrPart.ofBits (w.extractLsb' 5 2)) (regField w 0))
  else .error .stsrUnusedBits

/-- Class 00 with CMD = TEQ: AND test, or STPC when S = 0 (R83, R105, R172). -/
def decodeTeq (w : Word) : Except Reserved Instr :=
  if w.getLsbD 3 then
    if w.extractLsb' 7 3 = 0#3 then .ok (.teq (regField w 4) (regField w 0)) else .error .compareRd
  else if w.extractLsb' 8 2 != 0#2 then .error .stpcUnusedBits
  else if w.getLsbD 7 && w.getLsbD 0 then .error .stpcExchangeAndUser
  else
    let mode := if w.getLsbD 7 then StpcMode.exchange else if w.getLsbD 0 then .user else .keep
    .ok (.stpc mode (regField w 4) (w.getLsbD 2) (w.getLsbD 1))

/-- Class 00 with CMD = TST: XOR test, or LDPC when S = 0 (R83, R105). -/
def decodeTst (w : Word) : Except Reserved Instr :=
  if w.getLsbD 3 then
    if w.extractLsb' 7 3 = 0#3 then .ok (.tst (regField w 4) (regField w 0)) else .error .compareRd
  else if w.extractLsb' 4 3 != 0#3 || w.extractLsb' 0 3 != 0#3 then .error .ldpcUnusedBits
  else .ok (.ldpc (regField w 7))

/-- Class 00 (R82, R83, R103). -/
def decodeDataProcessing (w : Word) : Except Reserved Instr :=
  let rd := regField w 7
  let ra := regField w 4
  let sf := w.getLsbD 3
  let rb := regField w 0
  let imm := w.extractLsb' 0 3
  let same := w.extractLsb' 4 3 = w.extractLsb' 0 3
  match (w.extractLsb' 10 4).toNat with
  | 0 => .ok (.inc rd ra sf imm)
  | 1 => .ok (.dec rd ra sf imm)
  | 2 => .ok (.add rd ra sf rb)
  | 3 => .ok (.adc rd ra sf rb)
  | 4 => .ok (if same then .neg rd ra sf else .sub rd ra sf rb)
  | 5 => .ok (if same then .nec rd ra sf else .sbc rd ra sf rb)
  | 6 => decodeCmp w
  | 7 => decodeCpx w
  | 8 => .ok (if same then .stub rd ra sf else .and rd ra sf rb)
  | 9 => .ok (if same then .ldub rd ra sf else .orr rd ra sf rb)
  | 10 => .ok (.eor rd ra sf rb)
  | 11 => .ok (.nand rd ra sf rb)
  | 12 => .ok (.bic rd ra sf rb)
  | 13 => decodeTeq w
  | 14 => decodeTst w
  | _ => .ok (.sft rd ra sf (ShiftType.ofBits imm))

/-- Class 01, post-indexing without write-back: SWP or reserved (R84, R105, R197). -/
def decodeSwp (w : Word) : Except Reserved Instr :=
  if w.getLsbD 12 || w.getLsbD 10 || w.getLsbD 3 then .error .memoryForm
  else if w.extractLsb' 7 3 = w.extractLsb' 0 3 then .error .swpRdIsRb
  else .ok (.swp (regField w 7) (regField w 4) (regField w 0))

/-- Class 01 (R84, R192, R193). -/
def decodeMemory (w : Word) : Except Reserved Instr :=
  let p := w.getLsbD 13
  let wb := w.getLsbD 11
  if p && !wb then decodeSwp w
  else
    let ix := if p then Indexing.postWriteback else if wb then .preWriteback else .pre
    let off := Offset.ofBits (w.getLsbD 3) (w.extractLsb' 0 3)
    if w.getLsbD 10 then .ok (.str ix (w.getLsbD 12) (regField w 7) (regField w 4) off)
    else if wb && decide (w.extractLsb' 7 3 = w.extractLsb' 4 3) then .error .ldrWritebackIntoRd
    else .ok (.ldr ix (w.getLsbD 12) (regField w 7) (regField w 4) off)

/-- Class 1101 with M S = 11: the store-to-T-flag group (R87, R105). -/
def decodeStoreBit (w : Word) : Except Reserved Instr :=
  let ra := regField w 4
  let bit := w.extractLsb' 0 4
  match (w.extractLsb' 7 3).toNat with
  | 0 => .ok (.stb ra bit)
  | 1 => .ok (.stbi ra bit)
  | 2 => if bit = 0#4 then .ok (.spr ra) else .error .parityUnusedBits
  | 3 => if bit = 0#4 then .ok (.spri ra) else .error .parityUnusedBits
  | 4 => if w.getLsbD 3 then .error .indexUnusedBit else .ok (.stbr ra (regField w 0))
  | 5 => if w.getLsbD 3 then .error .indexUnusedBit else .ok (.stbri ra (regField w 0))
  | _ => .error .parityWithIndex

/-- Class 11 (R86 to R89), by bits 13:10. -/
def decodeUpper (w : Word) : Except Reserved Instr :=
  let rd := regField w 7
  let ra := regField w 4
  let cp := Cp.ofBit (w.getLsbD 10)
  let cmd := w.extractLsb' 0 3
  let imm8 := w.extractLsb' 10 1 ++ w.extractLsb' 0 7
  let cond := Cond.ofBits (w.extractLsb' 3 4)
  match (w.extractLsb' 10 4).toNat with
  | 0 | 1 => .ok (.ldil rd imm8)
  | 2 | 3 => .ok (.ldih rd imm8)
  | 4 => .ok (.cbr rd ra (w.extractLsb' 0 4))
  | 5 => .ok (.sbr rd ra (w.extractLsb' 0 4))
  | 6 => .ok (.ldb rd ra (w.extractLsb' 0 4))
  | 7 => decodeStoreBit w
  | 8 | 9 =>
    if w.getLsbD 3 then .error .cdpUnusedBit
    else .ok (.cdp cp (w.extractLsb' 7 3) (w.extractLsb' 4 3) cmd)
  | 10 | 11 =>
    if w.getLsbD 3 then .ok (.mcr cp (w.extractLsb' 7 3) ra cmd)
    else .ok (.mrc cp rd (w.extractLsb' 4 3) cmd)
  | 12 => if w.getLsbD 3 then .error .mulUnusedBit else .ok (.mul rd ra (regField w 0))
  | 13 =>
    if w.getLsbD 9 then
      if w.getLsbD 8 then .ok (.rba (w.getLsbD 7) cond (regField w 0))
      else .ok (.rbr (w.getLsbD 7) cond (regField w 0))
    else .ok (.sleep (w.extractLsb' 0 9))
  | 14 => .ok (.mv rd cond (regField w 0))
  | _ => .ok (.syscall (w.extractLsb' 0 10))

/-- The instruction of a word (R81, R103). -/
def decode (w : Word) : Except Reserved Instr :=
  match (w.extractLsb' 14 2).toNat with
  | 0 => decodeDataProcessing w
  | 1 => decodeMemory w
  | 2 =>
    let cond := Cond.ofBits (w.extractLsb' 10 4)
    let off := w.extractLsb' 0 9
    .ok (if w.getLsbD 9 then .bl cond off else .b cond off)
  | _ => decodeUpper w

/-! ## Bytes -/

/-- The word whose byte at the even address is `lo`: bits 7:0 lie at the even address (notes/assumptions/6.md). -/
def wordOfBytes (lo hi : Byte) : Word := hi ++ lo

/-- The byte of a word at its even address, and the one at the odd address. -/
def lowByte (w : Word) : Byte := w.extractLsb' 0 8

def highByte (w : Word) : Byte := w.extractLsb' 8 8

/-- The instruction in the first two bytes of a list, lowest address first. -/
def decodeBytes : List Byte → Except Reserved Instr
  | lo :: hi :: _ => decode (wordOfBytes lo hi)
  | _ => .error .tooFewBytes

/-- The bytes of an instruction of the opcode table whose bits are `w`, numbered as spec/opcode_table.json numbers
them; bits from `nbits` up are 0. -/
def tableBytes (nbits w : Nat) : List Byte :=
  let word : Word := BitVec.ofNat 16 (w % 2 ^ nbits)
  [lowByte word, highByte word]

/-- The instruction the decoder reads from an opcode-table word. -/
def decodeTableWord (nbits w : Nat) : Option Instr :=
  match decodeBytes (tableBytes nbits w) with
  | .ok i => some i
  | .error _ => none

/-! ## The encoder -/

/-- `00 CMD Rd Ra S Rb` (R82). -/
def encodeDp (cmd : BitVec 4) (rd ra : BitVec 3) (sf : Bool) (rb : BitVec 3) : Word :=
  0b00#2 ++ cmd ++ rd ++ ra ++ BitVec.ofBool sf ++ rb

/-- `01 P U W L Rd Ra I Offset` (R84). -/
def encodeMem (p u w l : Bool) (rd ra : BitVec 3) (i : Bool) (off : BitVec 3) : Word :=
  0b01#2 ++ BitVec.ofBool p ++ BitVec.ofBool u ++ BitVec.ofBool w ++ BitVec.ofBool l ++ rd ++ ra ++ BitVec.ofBool i ++ off

/-- `10 COND L Offset` (R85). -/
def encodeBranch (c : Cond) (l : Bool) (off : BitVec 9) : Word :=
  0b10#2 ++ c.toBits ++ BitVec.ofBool l ++ off

/-- `1100 M I7 Rd I6_0` (R86). -/
def encodeImm (m : Bool) (rd : Reg) (imm : BitVec 8) : Word :=
  0b1100#4 ++ BitVec.ofBool m ++ imm.extractLsb' 7 1 ++ rd.toBits ++ imm.extractLsb' 0 7

/-- `1101 M S Rd Ra Bit` (R87). -/
def encodeBit (ms : BitVec 2) (rd ra : BitVec 3) (bit : BitVec 4) : Word :=
  0b1101#4 ++ ms ++ rd ++ ra ++ bit

/-- `111101 1 A L COND Rb` (R89). -/
def encodeRegBranch (a l : Bool) (c : Cond) (rb : Reg) : Word :=
  0b1111011#7 ++ BitVec.ofBool a ++ BitVec.ofBool l ++ c.toBits ++ rb.toBits

/-- The word of an instruction (R82 to R94). -/
def encode : Instr → Word
  | .inc rd ra sf imm => encodeDp 0b0000 rd.toBits ra.toBits sf imm
  | .dec rd ra sf imm => encodeDp 0b0001 rd.toBits ra.toBits sf imm
  | .add rd ra sf rb => encodeDp 0b0010 rd.toBits ra.toBits sf rb.toBits
  | .adc rd ra sf rb => encodeDp 0b0011 rd.toBits ra.toBits sf rb.toBits
  | .sub rd ra sf rb => encodeDp 0b0100 rd.toBits ra.toBits sf rb.toBits
  | .neg rd ra sf => encodeDp 0b0100 rd.toBits ra.toBits sf ra.toBits
  | .sbc rd ra sf rb => encodeDp 0b0101 rd.toBits ra.toBits sf rb.toBits
  | .nec rd ra sf => encodeDp 0b0101 rd.toBits ra.toBits sf ra.toBits
  | .cmp ra rb => encodeDp 0b0110 0 ra.toBits true rb.toBits
  | .ldsr rd part => encodeDp 0b0110 rd.toBits (part.toBits ++ 0#1) false 0
  | .cpx notC orZ ra rb =>
    encodeDp 0b0111 (BitVec.ofBool notC ++ BitVec.ofBool orZ ++ 0#1) ra.toBits true rb.toBits
  | .stsr part rb => encodeDp 0b0111 0 (part.toBits ++ 0#1) false rb.toBits
  | .staf set t n o c z =>
    encodeDp 0b0111 (0#1 ++ BitVec.ofBool t ++ BitVec.ofBool n) (1#1 ++ BitVec.ofBool set.toBit ++ 1#1) false
      (BitVec.ofBool o ++ BitVec.ofBool c ++ BitVec.ofBool z)
  | .and rd ra sf rb => encodeDp 0b1000 rd.toBits ra.toBits sf rb.toBits
  | .stub rdUsr raSys sf => encodeDp 0b1000 rdUsr.toBits raSys.toBits sf raSys.toBits
  | .orr rd ra sf rb => encodeDp 0b1001 rd.toBits ra.toBits sf rb.toBits
  | .ldub rdSys raUsr sf => encodeDp 0b1001 rdSys.toBits raUsr.toBits sf raUsr.toBits
  | .eor rd ra sf rb => encodeDp 0b1010 rd.toBits ra.toBits sf rb.toBits
  | .nand rd ra sf rb => encodeDp 0b1011 rd.toBits ra.toBits sf rb.toBits
  | .bic rd ra sf rb => encodeDp 0b1100 rd.toBits ra.toBits sf rb.toBits
  | .teq ra rb => encodeDp 0b1101 0 ra.toBits true rb.toBits
  | .stpc mode ra link ie =>
    encodeDp 0b1101 (0#2 ++ BitVec.ofBool mode.bitX) ra.toBits false
      (BitVec.ofBool link ++ BitVec.ofBool ie ++ BitVec.ofBool mode.bitU)
  | .tst ra rb => encodeDp 0b1110 0 ra.toBits true rb.toBits
  | .ldpc rd => encodeDp 0b1110 rd.toBits 0 false 0
  | .sft rd ra sf type => encodeDp 0b1111 rd.toBits ra.toBits sf type.toBits
  | .ldr ix up rd ra off => encodeMem ix.bitP up ix.writesBack false rd.toBits ra.toBits off.bitI off.field
  | .str ix up rd ra off => encodeMem ix.bitP up ix.writesBack true rd.toBits ra.toBits off.bitI off.field
  | .swp rd ra rb => encodeMem true false false false rd.toBits ra.toBits false rb.toBits
  | .b cond off => encodeBranch cond false off
  | .bl cond off => encodeBranch cond true off
  | .ldil rd imm => encodeImm false rd imm
  | .ldih rd imm => encodeImm true rd imm
  | .cbr rd ra bit => encodeBit 0b00 rd.toBits ra.toBits bit
  | .sbr rd ra bit => encodeBit 0b01 rd.toBits ra.toBits bit
  | .ldb rd ra bit => encodeBit 0b10 rd.toBits ra.toBits bit
  | .stb ra bit => encodeBit 0b11 0b000 ra.toBits bit
  | .stbi ra bit => encodeBit 0b11 0b001 ra.toBits bit
  | .spr ra => encodeBit 0b11 0b010 ra.toBits 0
  | .spri ra => encodeBit 0b11 0b011 ra.toBits 0
  | .stbr ra ri => encodeBit 0b11 0b100 ra.toBits (0#1 ++ ri.toBits)
  | .stbri ra ri => encodeBit 0b11 0b101 ra.toBits (0#1 ++ ri.toBits)
  | .cdp cp ca cb cmd => 0b11100#5 ++ BitVec.ofBool cp.toBit ++ ca ++ cb ++ 0#1 ++ cmd
  | .mrc cp rd ca cmd => 0b11101#5 ++ BitVec.ofBool cp.toBit ++ rd.toBits ++ ca ++ 0#1 ++ cmd
  | .mcr cp cd ra cmd => 0b11101#5 ++ BitVec.ofBool cp.toBit ++ cd ++ ra.toBits ++ 1#1 ++ cmd
  | .mul rd ra rb => 0b111100#6 ++ rd.toBits ++ ra.toBits ++ 0#1 ++ rb.toBits
  | .sleep tag => 0b1111010#7 ++ tag
  | .rba link cond rb => encodeRegBranch true link cond rb
  | .rbr link cond rb => encodeRegBranch false link cond rb
  | .mv rd cond rb => 0b111110#6 ++ rd.toBits ++ cond.toBits ++ rb.toBits
  | .syscall tag => 0b111111#6 ++ tag

end Sys2Proof
end

