-- ==== Sys2Proof/Config.lean ====
section
/-! DEFINITION. What an implementation fixes (`Params`, spec/00_scope.md R3), what the agents around the core can do
(`Turn`, R7), and the FREE VALUES: constants with no body, one for each value the spec leaves open, each applied to
the state's counter of draws (or to its operands), so that no proof can know what it is. -/

namespace Sys2Proof

/-- Sense of the carry flag in a subtraction: parameter SUB_CARRY (R3, R123, decision D1). -/
inductive SubCarry where
  | borrow
  | notBorrow
  deriving DecidableEq, Repr, Inhabited

/-- The implementation parameters of R3. They stand in `State` and no step changes them (notes/assumptions/7.md).
NUM_PAGES and PAGE_SIZE are powers of two, so their binary logarithms are held. -/
structure Params where
  /-- CLK_SPEED, the main clock in Hz (R367). -/
  clkSpeed : BitVec 32
  /-- log2 of NUM_PAGES (R54). -/
  numPagesLog2 : Nat
  /-- log2 of PAGE_SIZE in bytes (R54). -/
  pageSizeLog2 : Nat
  /-- WB_FIFO_DEPTH (R401). -/
  wbFifoDepth : Nat
  /-- WB_BURST_BIAS, 1 or 0 (R404). -/
  wbBurstBias : Fin 2
  /-- SUB_CARRY (R123). -/
  subCarry : SubCarry
  /-- MUL_PRESENT (R250). -/
  mulPresent : Bool
  /-- CP0_PRESENT: whether logic is attached as coprocessor #0 (R243). -/
  cp0Present : Bool
  /-- Which unit of R2 this is: false for the base setup, true for the bare processor, whose CRITICAL_IRQ_I, IRQ_I, CE_I
  and memory buses are the host's (R7, R31, D28). -/
  bareProcessor : Bool
  /-- BOOT_CONFIG, the levels of SYS_IN_I(1:0) at reset (R427). -/
  bootConfig : BitVec 2
  deriving DecidableEq, Repr, Inhabited

/-- What the host answers to one word access of a Wishbone transfer (R408): an acknowledge (with the word, for a read),
an error, or nothing within the limit of timeout_val (R409). -/
inductive WbReply where
  | ack (w : Word)
  | err
  | timeout
  deriving DecidableEq, Repr, Inhabited

/-- The actions of the agents other than the core (R7). -/
inductive AgentEvent where
  /-- One cycle of the main clock (R341, R342). -/
  | clock
  /-- The host delivers a byte to the UART receiver (R374). -/
  | uartReceived (b : Byte)
  /-- The UART finishes its transmission (R373). -/
  | uartSent
  /-- The SPI transfer ends with this word in the shift register (R383). -/
  | spiFinished (w : Word)
  /-- The host drives PIO_IN_I (R390). -/
  | pioPins (v : Word)
  /-- The host drives SYS_IN_I (R392). -/
  | sysPins (v : Byte)
  /-- The host drives IRQ_I(0) (R332). -/
  | irqPin0 (level : Bool)
  /-- The host drives IRQ_I(1) (R332). -/
  | irqPin1 (level : Bool)
  /-- The host drives CRITICAL_IRQ_I (R283). -/
  | criticalPin (level : Bool)
  /-- The host drives CE_I, the global clock enable of the bare processor (R31, R63). -/
  | clockEnable (level : Bool)
  /-- The host changes a word of the memory it supplies to the bare processor (R7, R65; notes/assumptions/34.md). -/
  | hostMemory (page address w : Word)
  /-- The host answers the next word access of the Wishbone transfer in progress (R408). -/
  | wishbone (r : WbReply)
  /-- The hardware reset (R33, R420). -/
  | reset
  deriving DecidableEq, Repr, Inhabited

/-- Who moves next. `core`: the core executes its next instruction (or sleeps on). `interrupt`: the core takes the
interrupt whose condition holds (R289). -/
inductive Turn where
  | core
  | interrupt
  | agent (e : AgentEvent)
  deriving DecidableEq, Repr, Inhabited

/-- LFSR_NEXT: the step function of the LFSR on its value and its 15 tap bits (R351, decision D32). -/
opaque Config.lfsrNext : Word → BitVec 15 → Word
/-- How many steps a free-running LFSR has made since it was last looked at (R351). -/
opaque Config.lfsrSteps : Nat → Nat
/-- irq_sm[2:0] when no channel is pending (R335). -/
opaque Config.idleChannel : Nat → BitVec 3
/-- Which D-page reaches the bus in the window after a page write (R55): an index among the candidates. -/
opaque Config.dPageChoice : Nat → Nat
/-- Whether a UART overrun keeps the older byte (R374). -/
opaque Config.overrunKeepsOld : Nat → Bool
/-- What a read of spi_data shows while the SPI is busy (R383). -/
opaque Config.spiBusyData : Nat → Word
/-- What a read of the empty RX FIFO shows (R407). -/
opaque Config.rxEmptyWord : Nat → Word
/-- What base_adr_l and base_adr_h hold after a transfer (R403). -/
opaque Config.baseAfter : Nat → Word
/-- What a Wishbone FIFO holds after an aborted transfer (R408), or after one more word than it can hold. -/
opaque Config.fifoContents : Nat → List Word
/-- What an attached coprocessor #0 answers to a read (R243). -/
opaque Config.cp0Reply : Nat → Word
/-- Who moves next where no script says it and the spec leaves it open (R289, R448). -/
opaque Config.freeTurn : Nat → Turn

end Sys2Proof
end

