-- ==== Sys2Proof/Machine/Defaults.lean ====
section
/-! DEFINITION. The values the spec fixes by default or by decision, and the values the log names where it gives none:
the implementation parameters (spec/00_scope.md R3) and the reset values (spec/10_state.md R32). -/

namespace Sys2Proof.Machine

/-- The defaults of R3: the base setup with 4 pages of 4 KB, 32-word FIFOs, the test bench's 50 MHz and '11'. -/
def defaultParams : Params where
  clkSpeed := 0x02FAF080
  numPagesLog2 := 2
  pageSizeLog2 := 12
  wbFifoDepth := 32
  wbBurstBias := 1
  subCarry := .borrow
  mulPresent := true
  cp0Present := false
  bareProcessor := false
  bootConfig := 0b11

/-- RESET_MSR (R3, R32): system mode, everything else 0. -/
def resetMsr : Word := 0x8000

/-- The program counter after reset (R32). -/
def resetPc : Word := 0x0000

/-- mmu_irq_base, mmu_sys_i_page and mmu_sys_d_page after reset (R32). -/
def resetPage : Word := 0x8000

/-- What a register holds after reset where R32 gives it no value. DESIGN CHOICE, unsafe (notes/assumptions/1.md, 2.md). -/
def unstatedWord : Word := 0x0000

end Sys2Proof.Machine
end

