-- ==== Sys2Proof/Machine/State.lean ====
section
/-! DEFINITION. The machine's state, plain data, holding every piece of state the spec names (INVENTORY.md, "State"),
the reasons a step can stop, and the state after reset (spec/10_state.md R10 to R33). -/

namespace Sys2Proof.Machine

/-- Why the machine stops with a fault. Both are safe: the spec gives the byte no value. -/
inductive Fault where
  /-- A fetch or a data read of RAM that nothing has written (spec/20_memory.md R59, spec/10_state.md R32). Raised by
  fetch, LDR and SWP. Safe. The number is the byte address of the word in the RAM. -/
  | unwrittenRam (address : Nat)
  /-- A fetch or a data read of boot ROM whose contents the spec does not give (R426; 93_implementation_defined.md
  number 52). Raised by fetch, LDR and SWP. Safe. The number is the word's byte address inside the page. -/
  | unknownRom (address : Nat)
  deriving DecidableEq, Repr

/-- Why an instruction has no meaning where it stands. Each is a situation the spec itself refuses; all are safe. -/
inductive Refusal where
  /-- An instruction exec gives no meaning yet. Raised by exec alone. Safe. -/
  | notModelled (mnemonic : String)
  /-- A reserved word (R105). Raised by fetch. Safe. -/
  | reservedWord (r : Reserved)
  /-- LDR with write-back into its own destination (R192, D26). Raised by LDR. Safe. -/
  | ldrWritebackIntoRd
  /-- SWP with Rd = Rb (R197, D26). Raised by SWP. Safe. -/
  | swpRdIsRb
  /-- MUL where MUL_PRESENT is false (R250, D6). Raised by MUL. Safe. -/
  | multiplierAbsent
  /-- A data write to a page with bit 15 set (R61, D24). Raised by STR and SWP. Safe. -/
  | romWrite
  /-- A store to one of the two instruction words behind the store (R68, D11). Raised by STR and SWP. Safe. -/
  | storeToFetchedWord
  /-- An instruction other than a taken control transfer, or an interrupt, behind a write of the current I-page
  (R55, D15). Raised by the core's turn. Safe. -/
  | iPageWithoutTransfer
  /-- STSR that leaves system mode while the I-pages of the modes differ (R178, D25). Raised by STSR. Safe. -/
  | stsrAcrossPages
  /-- CDP on coprocessor #1 with two different register fields (R237, D13). Raised by CDP. Safe. -/
  | cdpFieldsDiffer
  /-- CDP on a module of coprocessor #1 other than c3 (R237, D13; 93_implementation_defined.md number 33). Raised by CDP.
  Safe. -/
  | cdpOtherModule
  /-- CDP on module c3 with a reserved command (R408, D13). Raised by CDP. Safe. -/
  | cdpReservedCommand
  /-- A write to uart_rtx_sd with the UART powered down (R371, D29). Raised by MCR. Safe. -/
  | uartPoweredDown
  /-- A write to uart_rtx_sd while the transmitter is busy (R373, D29). Raised by MCR. Safe. -/
  | uartBusy
  /-- A write to spi_data, spi_cs or com_ctrl while the SPI is busy (R383, D30). Raised by MCR. Safe. -/
  | spiBusy
  /-- A write to a Wishbone register, or a command, while a transfer is in progress (R402, D31). Raised by MCR and
  CDP. Safe. -/
  | wishboneBusy
  /-- A transfer of more words than a FIFO holds (R404, D31). Raised by CDP. Safe. -/
  | burstTooLong
  /-- A write to the full TX FIFO (R406, D31). Raised by MCR. Safe. -/
  | txFifoFull
  /-- A write transfer of more words than the TX FIFO holds at the time (R408, D31). Raised by CDP. Safe. -/
  | txFifoShort
  /-- A read of the RX FIFO during a read transfer (R407, D31). Raised by MRC. Safe. -/
  | rxFifoInTransfer
  /-- A use of a FIFO after an aborted transfer and before the next completed one (R408, D31). Raised by MRC, MCR
  and CDP. Safe. -/
  | fifoAfterAbort
  deriving DecidableEq, Repr

/-- What one step, or one instruction, answers. -/
abbrev Result (σ : Type) := Host.Outcome σ Fault Refusal

/-- One bank of general registers (R10). -/
structure Bank where
  r0 : Word
  r1 : Word
  r2 : Word
  r3 : Word
  r4 : Word
  r5 : Word
  r6 : Word
  r7 : Word
  deriving DecidableEq, Repr

/-- Module c1: the MMU (spec/61_system_coprocessor.md R360 to R367). -/
structure Mmu where
  /-- mmu_irq_base (R364). -/
  irqBase : Word
  /-- mmu_sys_i_page, the value written last (R361). -/
  sysI : Word
  /-- mmu_sys_d_page, the value written last (R361). -/
  sysD : Word
  /-- mmu_usr_i_page (R362). -/
  usrI : Word
  /-- mmu_usr_d_page (R362). -/
  usrD : Word
  /-- mmu_i_page_link (R366). -/
  iLink : Word
  /-- mmu_d_page_link (R366). -/
  dLink : Word
  /-- The read toggle of mmu_sys_info: false when the high half comes next (R367). -/
  infoSel : Bool
  /-- The I-page that the fetch of the instruction behind a write of the current I-page still uses (R55). -/
  iOld : Option Word
  /-- Earlier values of the current D-page that a data access may still use, each with the number of further
  instructions it may be used for (R55). -/
  dOld : List (Word × Nat)
  deriving DecidableEq, Repr

/-- Module c0: the interrupt controller (R332 to R339). -/
structure IrqCtl where
  /-- irq_sm[15:8], the enable mask (R333). -/
  mask : BitVec 8
  /-- irq_conf (R333). -/
  conf : Word
  /-- The pending bits (R334). -/
  pend : BitVec 8
  deriving DecidableEq, Repr

/-- Module c0: the timer (R340 to R346). -/
structure Timer where
  /-- timer_cnt. -/
  cnt : Word
  /-- timer_thr. -/
  thr : Word
  /-- timer_prsc. -/
  prsc : Word
  /-- The hidden pre-counter (R342). -/
  pre : Word
  deriving DecidableEq, Repr

/-- Module c0: the LFSR (R350, R351). -/
structure Lfsr where
  data : Word
  poly : Word
  deriving DecidableEq, Repr

/-- Module c2: the UART (R370 to R375). Its enable bit is in com_ctrl. -/
structure Uart where
  /-- uart_prsc (R372). -/
  prsc : Word
  /-- The receive buffer (R374). -/
  rxData : Byte
  /-- The data-ready flag (R374). -/
  rxReady : Bool
  /-- The transmit shift register (R29). -/
  txShift : Byte
  /-- The transmitter busy flag (R373). -/
  txBusy : Bool
  deriving DecidableEq, Repr

/-- Module c2: the SPI controller (R380 to R386). Its configuration is in com_ctrl. -/
structure Spi where
  /-- spi_data, the shift register (R383). -/
  data : Word
  /-- spi_cs (R384). -/
  cs : Byte
  /-- The busy flag (R383). -/
  busy : Bool
  deriving DecidableEq, Repr

/-- Module c2: the output ports (R391, R392). -/
structure Pio where
  /-- pio_out. -/
  out : Word
  /-- sys_io[15:8], the pins SYS_OUT_O. -/
  sysOut : Byte
  deriving DecidableEq, Repr

/-- Module c3: the Wishbone adapter (R400 to R411). -/
structure Wishbone where
  /-- ctrl[15:8] (R404). -/
  burst : Byte
  /-- ctrl[3], ctrl[4], ctrl[5]: the interrupt enables (R405). -/
  enDone : Bool
  enErr : Bool
  enTo : Bool
  /-- ctrl[0], ctrl[1], ctrl[2]: done, bus error, timeout (R405). -/
  fDone : Bool
  fErr : Bool
  fTo : Bool
  /-- ctrl[6]: a transfer is in progress (R405). -/
  busy : Bool
  /-- ctrl[7]: true for a bus write (R405). -/
  dir : Bool
  /-- base_adr_l and base_adr_h (R403). -/
  baseL : Word
  baseH : Word
  /-- adr_offs (R403). -/
  offs : Word
  /-- timeout_val (R409). -/
  timeout : Word
  /-- The TX and RX FIFOs, oldest word first (R401). -/
  tx : List Word
  rx : List Word
  /-- Words still to move, and words moved, in the transfer in progress (R408). -/
  left : Nat
  done : Nat
  /-- A transfer was aborted and none has completed since (R408). -/
  aborted : Bool
  deriving DecidableEq, Repr

/-- The levels of the input pins (R31). CRITICAL_IRQ_I, IRQ_I and CE_I are pins of the bare processor alone. -/
structure Pins where
  critical : Bool
  irq0 : Bool
  irq1 : Bool
  /-- CE_I, the global clock enable. -/
  ce : Bool
  pioIn : Word
  sysIn : Byte
  deriving DecidableEq, Repr

/-- The levels at the last clock edge of the pins whose change triggers a channel: the previous sample of PIO_IN_I (R29,
R390) and those of IRQ_I (R333). -/
structure Samples where
  pioIn : Word
  irq0 : Bool
  irq1 : Bool
  deriving DecidableEq, Repr

/-- What the instruction executed last leaves of the boundary behind it, for an interrupt (R289, R440). -/
inductive Boundary where
  /-- An interrupt may be taken here. -/
  | free
  /-- Directly behind a taken branch. -/
  | afterBranch
  /-- Directly behind a load into `rd`. -/
  | afterLoad (rd : Reg)
  deriving DecidableEq, Repr

/-- What the machine has handed to the host, for its record (R425). A transaction with coprocessor #0 stands for CP_EN_O
active, its constructor for CP_OP_O; the level of CP_ICE_O, to which the spec gives a name alone, is not recorded
(DESIGN CHOICE, notes/assumptions/30.md). -/
inductive HostOutput where
  /-- A byte sent by the UART (R373). -/
  | uartByte (b : Byte)
  /-- An SPI exchange started with this word, these chip selects and this com_ctrl (R383). -/
  | spiExchange (tx : Word) (cs : Byte) (cfg : Word)
  /-- A word read asked of the Wishbone bus (R408). -/
  | wishboneRead (address : BitVec 32)
  /-- A word write put on the Wishbone bus (R408). -/
  | wishboneWrite (address : BitVec 32) (w : Word)
  /-- A data transfer with coprocessor #0, CP_RW_O read, with CP_CMD_O (R235, R238). -/
  | coprocessorRead (cmd : BitVec 9)
  /-- A data transfer with coprocessor #0, CP_RW_O write, with CP_CMD_O and CP_DAT_O (R236, R238). -/
  | coprocessorWrite (cmd : BitVec 9) (data : Word)
  /-- A data processing on coprocessor #0, with CP_CMD_O (R237, R238). The levels of CP_RW_O and CP_DAT_O, to which the
  spec gives no meaning here, are not recorded (notes/assumptions/30.md). -/
  | coprocessorCommand (cmd : BitVec 9)
  /-- The pins PIO_OUT_O show a new value (R391, R425). -/
  | pioOut (v : Word)
  /-- The pins SYS_OUT_O show a new value (R392, R425). -/
  | sysOut (v : Byte)
  /-- The pins SPI_CS_O show a new value (R384, R425). -/
  | spiCs (v : Byte)
  deriving DecidableEq, Repr

/-- Memory: (address, byte) pairs in one canonical form, addresses strictly rising. A byte that is not listed has no
value (R32, R59; notes/assumptions/4.md). -/
abbrev Memory := List Host.Cell

/-- The state of the machine. -/
structure State where
  /-- The byte address of the instruction to execute next (R14). -/
  pc : Word
  /-- The machine status register (R17). -/
  msr : Word
  /-- The user bank and the system bank (R10). -/
  usr : Bank
  sys : Bank
  /-- Run state (R28). -/
  sleeping : Bool
  mmu : Mmu
  irq : IrqCtl
  timer : Timer
  lfsr : Lfsr
  /-- com_ctrl: bits 2:0, 4, 6 and 15:8; its other bits are held 0 (R331). -/
  comCtrl : Word
  uart : Uart
  spi : Spi
  pio : Pio
  wb : Wishbone
  /-- The internal RAM, by byte address in the RAM (R54). -/
  ram : Memory
  /-- The boot ROM, by byte address in the page (R53). -/
  rom : Memory
  pins : Pins
  /-- The previous samples of the pins (R29). -/
  seen : Samples
  /-- The boundary in front of the next instruction (R289, R440). -/
  boundary : Boundary
  /-- The turns of the agents still to come (R7; the model's own field, notes/assumptions/8.md). -/
  script : List Turn
  /-- What the host has been handed, oldest first (the model's own field, notes/assumptions/16.md). -/
  record : List HostOutput
  /-- How many free values have been drawn (the model's own field, notes/assumptions/9.md). -/
  draws : Nat
  /-- The implementation parameters (R3; the model's own field, notes/assumptions/7.md). -/
  params : Params
  deriving DecidableEq, Repr

/-- A bank whose registers all hold `w`. -/
def Bank.filled (w : Word) : Bank := ⟨w, w, w, w, w, w, w, w⟩

/-- The machine with parameters `p` right after reset (R32, R420). Every register R32 leaves unwritten holds the value
notes/assumptions/1.md and 2.md name; SYS_IN_I(1:0) shows BOOT_CONFIG (R3, R427). -/
def State.resetWith (p : Params) : State where
  pc := resetPc
  msr := resetMsr
  usr := Bank.filled unstatedWord
  sys := Bank.filled unstatedWord
  sleeping := false
  mmu :=
    { irqBase := resetPage, sysI := resetPage, sysD := resetPage, usrI := unstatedWord, usrD := unstatedWord,
      iLink := unstatedWord, dLink := unstatedWord, infoSel := false, iOld := none, dOld := [] }
  irq := { mask := 0, conf := unstatedWord, pend := 0 }
  timer := { cnt := unstatedWord, thr := 0, prsc := unstatedWord, pre := unstatedWord }
  lfsr := { data := unstatedWord, poly := unstatedWord }
  comCtrl := 0
  uart := { prsc := unstatedWord, rxData := 0, rxReady := false, txShift := 0, txBusy := false }
  spi := { data := unstatedWord, cs := 0, busy := false }
  pio := { out := unstatedWord, sysOut := 0 }
  wb :=
    { burst := 0, enDone := false, enErr := false, enTo := false, fDone := false, fErr := false, fTo := false,
      busy := false, dir := false, baseL := unstatedWord, baseH := unstatedWord, offs := unstatedWord,
      timeout := unstatedWord, tx := [], rx := [], left := 0, done := 0, aborted := false }
  ram := []
  rom := []
  pins := { critical := false, irq0 := false, irq1 := false, ce := true, pioIn := 0, sysIn := p.bootConfig.zeroExtend 8 }
  seen := { pioIn := 0, irq0 := false, irq1 := false }
  boundary := .free
  script := []
  record := []
  draws := 0
  params := p

/-- The machine of the default parameters right after reset (R3, R32). -/
def State.reset : State := State.resetWith defaultParams

end Sys2Proof.Machine
end

