-- ==== Sys2Proof/Machine/Flags.lean ====
section
/-! DEFINITION. The computations of the data-processing instructions and of the conditions: results and flags
(spec/40_data_processing.md R121 to R125, R144 to R151; spec/45_branch.md R206). -/

namespace Sys2Proof.Machine

/-- The four arithmetic flags an S instruction writes (R20). -/
structure AluFlags where
  z : Bool
  c : Bool
  o : Bool
  n : Bool
  deriving DecidableEq, Repr

/-- A result with the flags it gives. -/
structure AluOut where
  result : Word
  flags : AluFlags
  deriving DecidableEq, Repr

/-- Z of a result (R121). -/
def zeroFlag (r : Word) : Bool := decide (r = 0#16)

/-- N of a result (R121). -/
def negativeFlag (r : Word) : Bool := r.getLsbD 15

/-- Whether an exact signed result leaves the 16-bit range (R122, R123). -/
def overflows (x : Int) : Bool := decide (x < -32768) || decide (32767 < x)

/-- An addition with carry input (R122). -/
def addOut (a b : Word) (cin : Bool) : AluOut :=
  let sum := a.toNat + b.toNat + bitNat cin
  let result : Word := BitVec.ofNat 16 sum
  { result
    flags :=
      { z := zeroFlag result
        c := decide (65536 ≤ sum)
        o := overflows (a.toInt + b.toInt + bitNat cin)
        n := negativeFlag result } }

/-- The borrow that a carry input stands for (R123). -/
def borrowIn (sense : SubCarry) (cin : Bool) : Bool :=
  match sense with
  | .borrow => cin
  | .notBorrow => !cin

/-- The carry flag that a borrow gives (R123). -/
def carryOfBorrow (sense : SubCarry) (borrow : Bool) : Bool :=
  match sense with
  | .borrow => borrow
  | .notBorrow => !borrow

/-- A subtraction with borrow input (R123). -/
def subOut (sense : SubCarry) (a b : Word) (bin : Bool) : AluOut :=
  let diff : Int := a.toNat - b.toNat - bitNat bin
  let result : Word := BitVec.ofInt 16 diff
  { result
    flags :=
      { z := zeroFlag result
        c := carryOfBorrow sense (decide (diff < 0))
        o := overflows (a.toInt - b.toInt - bitNat bin)
        n := negativeFlag result } }

/-- A logical result: C and O keep their values (R124). -/
def logicOut (old : AluFlags) (r : Word) : AluOut :=
  { result := r, flags := { old with z := zeroFlag r, n := negativeFlag r } }

/-- The result of a shift of `a` with the old carry `c` (R144 to R151). -/
def shiftResult (t : ShiftType) (a : Word) (c : Bool) : Word :=
  match t with
  | .swp => swapBytes a
  | .asr => a.extractLsb' 15 1 ++ a.extractLsb' 1 15
  | .rol => a.extractLsb' 0 15 ++ a.extractLsb' 15 1
  | .ror => a.extractLsb' 0 1 ++ a.extractLsb' 1 15
  | .lsl => a.extractLsb' 0 15 ++ 0#1
  | .lsr => 0#1 ++ a.extractLsb' 1 15
  | .rlc => a.extractLsb' 0 15 ++ BitVec.ofBool c
  | .rrc => BitVec.ofBool c ++ a.extractLsb' 1 15

/-- The bit of `a` that a shift puts into C (R144 to R151). -/
def shiftCarry (t : ShiftType) (a : Word) : Bool :=
  match t with
  | .swp | .rol | .lsl | .rlc => a.getLsbD 15
  | .asr | .ror | .lsr | .rrc => a.getLsbD 0

/-- A shift with its flags (R125). -/
def shiftOut (t : ShiftType) (a : Word) (c : Bool) : AluOut :=
  let result := shiftResult t a c
  { result
    flags :=
      { z := zeroFlag result
        c := shiftCarry t a
        o := a.getLsbD 15 ^^ result.getLsbD 15
        n := negativeFlag result } }

/-- The truth of a condition on flags Z, C, O, N, T (R206). -/
def condHolds (k : Cond) (z c o n t : Bool) : Bool :=
  match k with
  | .eq => z
  | .ne => !z
  | .cs => c
  | .cc => !c
  | .mi => n
  | .pl => !n
  | .os => o
  | .oc => !o
  | .hi => c && !z
  | .ls => !c || z
  | .ge => n == o
  | .lt => n != o
  | .gt => !z && (n == o)
  | .le => z || (n != o)
  | .ts => t
  | .al => true

end Sys2Proof.Machine
end

