-- ==== Sys2Proof/Machine/Memory.lean ====
section
/-! DEFINITION. Memory as a sorted list of cells, the words in it, and the address map of spec/20_memory.md: boot ROM
where page bit 15 is set (R53), the RAM with its undecoded bits elsewhere (R54), the swap of an odd address (R60, R61). -/

namespace Sys2Proof.Machine

/-- The byte at an address; `none` where nothing has written it. -/
def Memory.read : Memory → Nat → Option Byte
  | [], _ => none
  | (k, v) :: m, a => if k = a then some v else Memory.read m a

/-- `m` with the byte `v` at address `a`. -/
def Memory.write : Memory → Nat → Byte → Memory
  | [], a, v => [(a, v)]
  | (k, x) :: m, a, v =>
    if a < k then (a, v) :: (k, x) :: m
    else if a = k then (a, v) :: m
    else (k, x) :: Memory.write m a v

/-- The canonical form: addresses strictly rising. -/
def Memory.wf : Memory → Bool
  | [] => true
  | [_] => true
  | (a, _) :: (b, y) :: m => decide (a < b) && Memory.wf ((b, y) :: m)

/-- Whether every listed address is below `n`. -/
def Memory.below (n : Nat) (m : Memory) : Bool := m.all (fun c => decide (c.1 < n))

/-- The word whose byte at the even address is at `k` (R57, R58; notes/assumptions/6.md). -/
def Memory.readWord (m : Memory) (k : Nat) : Option Word :=
  match m.read k, m.read (k + 1) with
  | some lo, some hi => some (wordOfBytes lo hi)
  | _, _ => none

/-- `m` with a whole word written at `k`: there is no byte enable (R61). -/
def Memory.writeWord (m : Memory) (k : Nat) (w : Word) : Memory :=
  (m.write k (lowByte w)).write (k + 1) (highByte w)

/-- Whether an access through `page` goes to the boot ROM: page bit 15 alone decides (R53). -/
def inRom (page : Word) : Bool := page.getLsbD 15

/-- The byte address, in the ROM, of the word that contains byte address `a` of the page: every page shows the same
ROM (R53). DESIGN CHOICE: the spec gives no size of the ROM, and the model decodes all of address bits 15:1, so no two words
of a page are one (notes/assumptions/36.md). -/
def romAddress (a : Word) : Nat := a.toNat / 2 * 2

/-- How many page bits the memory decodes: those of NUM_PAGES in the base setup (R54), all sixteen on the bare processor,
whose memory is the host's (R51). -/
def pageBits (p : Params) : Nat := if p.bareProcessor then 16 else p.numPagesLog2

/-- How many address bits the memory decodes: those of PAGE_SIZE in the base setup (R54), all sixteen on the bare
processor (R51). -/
def addressBits (p : Params) : Nat := if p.bareProcessor then 16 else p.pageSizeLog2

/-- The byte address, in the memory, of the word that contains byte address `a` of `page`: the low bits of the page joined
to the low bits of the address, address bit 0 not decoded (R54). On the bare processor it is the physical address (R51). -/
def ramAddress (p : Params) (page a : Word) : Nat :=
  page.toNat % 2 ^ pageBits p * 2 ^ addressBits p + a.toNat % 2 ^ addressBits p / 2 * 2

/-- The size of the memory in bytes (R54). -/
def ramSize (p : Params) : Nat := 2 ^ pageBits p * 2 ^ addressBits p

/-- The aligned word that contains byte address `a` of `page`, or why it has no value (R53, R54, R59). -/
def State.wordAt (s : State) (page a : Word) : Except Fault Word :=
  if inRom page then
    match s.rom.readWord (romAddress a) with
    | some w => .ok w
    | none => .error (.unknownRom (romAddress a))
  else
    match s.ram.readWord (ramAddress s.params page a) with
    | some w => .ok w
    | none => .error (.unwrittenRam (ramAddress s.params page a))

/-- A data word as the access at byte address `a` moves it: bytes exchanged at an odd address (R60, R61). -/
def accessOrder (a w : Word) : Word := if a.getLsbD 0 then swapBytes w else w

/-- MemRead(a, 2) through `page` (R60). -/
def State.memRead (s : State) (page a : Word) : Except Fault Word :=
  (s.wordAt page a).map (accessOrder a)

/-- Whether a store through `page` at `a` hits one of the two instruction words behind the one at `pc` (R68). -/
def State.hitsFetched (s : State) (fetchPage page a : Word) : Bool :=
  !inRom fetchPage && !inRom page
    && (ramAddress s.params page a == ramAddress s.params fetchPage (s.pc + 2)
      || ramAddress s.params page a == ramAddress s.params fetchPage (s.pc + 4))

/-- MemWrite(a, 2, v) through `page` (R61), refused on the boot ROM (R61, D24) and on the two instruction words that are
already fetched through `fetchPage` (R68, D11). -/
def State.memWrite (s : State) (fetchPage page a v : Word) : Except Refusal State :=
  if inRom page then .error .romWrite
  else if s.hitsFetched fetchPage page a then .error .storeToFetchedWord
  else .ok { s with ram := s.ram.writeWord (ramAddress s.params page a) (accessOrder a v) }

end Sys2Proof.Machine
end

