-- ==== Sys2Proof/Machine/Ops.lean ====
section
/-! DEFINITION. The named operations over the registers, the MSR, the pages and the program counter, and TAKING A TRAP
(spec/60_exceptions.md R290, R291) and returning from one (spec/42_pc_access.md R167). -/

namespace Sys2Proof.Machine

/-! ## General registers -/

/-- Register `r` of a bank. -/
def Bank.get (b : Bank) : Reg → Word
  | .r0 => b.r0 | .r1 => b.r1 | .r2 => b.r2 | .r3 => b.r3
  | .r4 => b.r4 | .r5 => b.r5 | .r6 => b.r6 | .r7 => b.r7

/-- A bank with register `r` replaced: every write replaces all sixteen bits (R13). -/
def Bank.set (b : Bank) (r : Reg) (w : Word) : Bank :=
  match r with
  | .r0 => { b with r0 := w }
  | .r1 => { b with r1 := w }
  | .r2 => { b with r2 := w }
  | .r3 => { b with r3 := w }
  | .r4 => { b with r4 := w }
  | .r5 => { b with r5 := w }
  | .r6 => { b with r6 := w }
  | .r7 => { b with r7 := w }

/-- Whether the machine is in system mode: MSR.M (R24). -/
def State.inSystem (s : State) : Bool := s.msr.getLsbD 15

/-- `R[r]`, a register of the current bank (R11). -/
def State.reg (s : State) (r : Reg) : Word := if s.inSystem then s.sys.get r else s.usr.get r

/-- `R[r] <- w` in the current bank (R11). -/
def State.setReg (s : State) (r : Reg) (w : Word) : State :=
  if s.inSystem then { s with sys := s.sys.set r w } else { s with usr := s.usr.set r w }

/-! ## The machine status register -/

/-- The bit numbers of the MSR's control bits (R17). -/
def bitCP : Nat := 10
def bitGX : Nat := 11
def bitX0 : Nat := 12
def bitX1 : Nat := 13
def bitS : Nat := 14
def bitM : Nat := 15

/-- Where the flag set of a mode begins: bit 5 for the system set, bit 0 for the user set (R17). -/
def flagBase (system : Bool) : Nat := if system then 5 else 0

/-- The ALU flags (R17), in MSR order. -/
inductive Flag where
  | z | c | o | n | t
  deriving DecidableEq, Repr

/-- The place of a flag inside its set (R17). -/
def Flag.offset : Flag → Nat
  | .z => 0 | .c => 1 | .o => 2 | .n => 3 | .t => 4

/-- `F.k`, a flag of the current mode's set (R17). -/
def State.flag (s : State) (k : Flag) : Bool := s.msr.getLsbD (flagBase s.inSystem + k.offset)

/-- `F.k <- v`. -/
def State.setFlag (s : State) (k : Flag) (v : Bool) : State :=
  { s with msr := setBit s.msr (flagBase s.inSystem + k.offset) v }

/-- The four arithmetic flags of the current set. -/
def State.aluFlags (s : State) : AluFlags := { z := s.flag .z, c := s.flag .c, o := s.flag .o, n := s.flag .n }

/-- The MSR with the four arithmetic flags of the set at `base` replaced. -/
def msrWithAlu (msr : Word) (base : Nat) (f : AluFlags) : Word :=
  setBit (setBit (setBit (setBit msr (base + 0) f.z) (base + 1) f.c) (base + 2) f.o) (base + 3) f.n

/-- Z, C, O, N of the current set written. -/
def State.setAluFlags (s : State) (f : AluFlags) : State :=
  { s with msr := msrWithAlu s.msr (flagBase s.inSystem) f }

/-- The flags an S instruction leaves: written when S is set, kept when it is not (R120). -/
def State.setAluFlagsIf (s : State) (sf : Bool) (f : AluFlags) : State := if sf then s.setAluFlags f else s

/-- The MSR with the flag set at `base` replaced by an image T N O C Z (R179). -/
def msrWithFlagSet (msr : Word) (base : Nat) (t n o c z : Bool) : Word :=
  setBit (setBit (setBit (setBit (setBit msr (base + 0) z) (base + 1) c) (base + 2) o) (base + 3) n) (base + 4) t

/-- The mask of an MSR part (R176). -/
def partMask : MsrPart → Word
  | .all => 0xFFFF
  | .aluFlags => 0x03FF
  | .sysFlags => 0x03E0
  | .usrFlags => 0x001F

/-- `cond(k)` on the current flags (R206). -/
def State.cond (s : State) (k : Cond) : Bool :=
  condHolds k (s.flag .z) (s.flag .c) (s.flag .o) (s.flag .n) (s.flag .t)

/-! ## The program counter -/

/-- `pc <- target`. -/
def State.setPc (s : State) (target : Word) : State := { s with pc := target }

/-- Sequential advance (R15, R16). -/
def State.advance (s : State) : State := s.setPc (s.pc + 2)

/-- The target of a relative branch (R92, R208). -/
def branchTarget (pc : Word) (off : BitVec 9) : Word := pc + 2 * off.signExtend 16

/-! ## Pages -/

/-- Ipage (R52). -/
def State.iPage (s : State) : Word := if s.inSystem then s.mmu.sysI else s.mmu.usrI

/-- Dpage (R52), the value written last. -/
def State.dPage (s : State) : Word := if s.inSystem then s.mmu.sysD else s.mmu.usrD

/-- The page the next fetch uses: the old one right behind a write of the current I-page (R55). -/
def State.fetchPage (s : State) : Word :=
  match s.mmu.iOld with
  | some p => p
  | none => s.iPage

/-- The page a data access uses, with the draw it takes (R55): in the window after a write of the current D-page any of
the candidates may still be on the bus. -/
def State.dataPage (s : State) : Word × State :=
  if s.inSystem then
    match s.mmu.dOld with
    | [] => (s.mmu.sysD, s)
    | p :: ps =>
      let pages := s.mmu.sysD :: p.1 :: ps.map (·.1)
      (pages.getD (Config.dPageChoice s.draws % pages.length) s.mmu.sysD, { s with draws := s.draws + 1 })
  else (s.mmu.usrD, s)

/-! ## Taking a trap, and returning -/

/-- The four traps besides the reset (R280). -/
inductive Trap where
  /-- EXT_INT_0, the pin CRITICAL_IRQ_I. -/
  | critical
  /-- EXT_INT_1, the interrupt controller. -/
  | controller
  | commandError
  | systemCall
  deriving DecidableEq, Repr

/-- The vector of a trap (R280, R281). -/
def Trap.vector : Trap → Word
  | .critical => 0x0002
  | .controller => 0x0004
  | .commandError => 0x0006
  | .systemCall => 0x0008

/-- The MSR after trap entry: S takes M, M is set, GX is cleared, nothing else changes (R290). -/
def trapMsr (msr : Word) : Word := setBit (setBit (setBit msr bitS (msr.getLsbD bitM)) bitM true) bitGX false

/-- The MMU after trap entry: the pages in force are saved, the system pages become mmu_irq_base, with no delay window
(R290, R365, R366). -/
def State.trapMmu (s : State) : Mmu :=
  { s.mmu with
    iLink := s.iPage, dLink := s.dPage, sysI := s.mmu.irqBase, sysD := s.mmu.irqBase, iOld := none, dOld := [] }

/-- Trap entry, the same for the four traps, in one indivisible step (R290). -/
def State.enterTrap (s : State) (t : Trap) (link : Word) : State :=
  { s with
    pc := t.vector
    msr := trapMsr s.msr
    sys := s.sys.set .r7 link
    mmu := s.trapMmu
    sleeping := false }

/-- An exception raised by the instruction at `pc`: the link is `pc + 4` (R291). -/
def State.raiseTrap (s : State) (t : Trap) : State := s.enterTrap t (s.pc + 4)

/-- An interrupt taken before the instruction at `pc`: the link is `pc + 2` (R291). -/
def State.takeInterrupt (s : State) (t : Trap) : State := s.enterTrap t (s.pc + 2)

/-- The MSR that a transfer of control with options leaves: GX set with I, M cleared with U, M taken from S with X
(R167 to R170). -/
def returnMsr (msr : Word) (mode : StpcMode) (ie : Bool) : Word :=
  let m := if ie then setBit msr bitGX true else msr
  match mode with
  | .keep => m
  | .user => setBit m bitM false
  | .exchange => setBit m bitM (m.getLsbD bitS)

/-- The return from a trap and every other absolute transfer of STPC (R167, R293): the register is read before the link
is written, and the link goes to the bank in force before (R171). -/
def State.transfer (s : State) (ra : Reg) (mode : StpcMode) (link ie : Bool) : State :=
  let target := clearBit0 (s.reg ra)
  let linked := if link then s.setReg .r7 (s.pc + 2) else s
  { linked with msr := returnMsr s.msr mode ie, pc := target }

/-! ## Free values -/

/-- One more free value has been drawn. -/
def State.drawn (s : State) : State := { s with draws := s.draws + 1 }

/-- One more thing handed to the host (R425). -/
def State.emit (s : State) (o : HostOutput) : State := { s with record := s.record ++ [o] }

end Sys2Proof.Machine
end

