-- ==== Sys2Proof/Machine/IrqTimer.lean ====
section
/-! DEFINITION. Module c0 of the system coprocessor: interrupt controller, timer and LFSR
(spec/61_system_coprocessor.md R332 to R351), and the interrupt conditions of the core (spec/60_exceptions.md R283 to R288). -/

namespace Sys2Proof.Machine

/-! ## Interrupt controller -/

/-- The channels of the devices (R332). -/
def chTimer : Nat := 0
def chWishbone : Nat := 1
def chUartRx : Nat := 2
def chUartTx : Nat := 3
def chSpi : Nat := 4
def chPio : Nat := 5
def chPin0 : Nat := 6
def chPin1 : Nat := 7

/-- A trigger of a channel: a pending bit while it is enabled, lost while it is not (R334). -/
def IrqCtl.trigger (q : IrqCtl) (ch : Nat) : IrqCtl :=
  if q.mask.getLsbD ch then { q with pend := q.pend ||| (1#8 <<< ch) } else q

/-- Whether a channel is level triggered, and its polarity (R333). -/
def IrqCtl.isLevel (q : IrqCtl) (ch : Nat) : Bool := q.conf.getLsbD ch
def IrqCtl.isHigh (q : IrqCtl) (ch : Nat) : Bool := q.conf.getLsbD (8 + ch)

/-- A one-cycle high pulse of an internal line. It rises, is high and falls again, so it holds a trigger of each of the
four kinds (R332, R333; notes/assumptions/22.md). -/
def IrqCtl.pulse (q : IrqCtl) (ch : Nat) : IrqCtl := q.trigger ch

/-- A line that goes from one level to another: an edge trigger on the configured edge, a level trigger at the
configured level (R333). -/
def IrqCtl.lineChange (q : IrqCtl) (ch : Nat) (before after : Bool) : IrqCtl :=
  if q.isLevel ch then
    if after == q.isHigh ch then q.trigger ch else q
  else if before != after && after == q.isHigh ch then q.trigger ch
  else q

/-- EXT_INT_1 requests while a channel is pending (R334). -/
def IrqCtl.request (q : IrqCtl) : Bool := decide (q.pend ≠ 0#8)

/-- The pending channel of highest priority, the smallest number (R335, R336). -/
def lowestSet (p : BitVec 8) : Option (BitVec 3) :=
  if p.getLsbD 0 then some 0
  else if p.getLsbD 1 then some 1
  else if p.getLsbD 2 then some 2
  else if p.getLsbD 3 then some 3
  else if p.getLsbD 4 then some 4
  else if p.getLsbD 5 then some 5
  else if p.getLsbD 6 then some 6
  else if p.getLsbD 7 then some 7
  else none

/-- irq_sm with a channel number in bits 2:0 (R331). -/
def irqSmValue (mask : BitVec 8) (ch : BitVec 3) : Word := mask ++ (0#5 ++ ch)

/-- A read of irq_sm acknowledges the channel it names; with nothing pending bits 2:0 are a free value (R335). -/
def State.readIrqSm (s : State) : Word × State :=
  match lowestSet s.irq.pend with
  | some ch =>
    (irqSmValue s.irq.mask ch, { s with irq := { s.irq with pend := s.irq.pend &&& ~~~(1#8 <<< ch.toNat) } })
  | none => (irqSmValue s.irq.mask (Config.idleChannel s.draws), s.drawn)

/-- A write of irq_sm: the new mask; pending bits stay (R334, R337). -/
def State.writeIrqSm (s : State) (v : Word) : State := { s with irq := { s.irq with mask := v.extractLsb' 8 8 } }

/-- A write of irq_conf; no trigger by itself (R337). -/
def State.writeIrqConf (s : State) (v : Word) : State := { s with irq := { s.irq with conf := v } }

/-- The line of the Wishbone adapter (R410). -/
def Wishbone.line (w : Wishbone) : Bool := (w.fDone && w.enDone) || (w.fErr && w.enErr) || (w.fTo && w.enTo)

/-- The levels of the eight lines between pulses: the adapter's line and the two pins, which the base setup does not
bring out (R332, D28). -/
def State.lines (s : State) : BitVec 8 :=
  BitVec.ofBool (s.params.bareProcessor && s.pins.irq1) ++ BitVec.ofBool (s.params.bareProcessor && s.pins.irq0)
    ++ 0#4 ++ BitVec.ofBool s.wb.line ++ 0#1

/-- The channels that have a line: the base setup does not bring channels 6 and 7 out, and they never trigger (R332, D28). -/
def State.presentChannels (s : State) : BitVec 8 := if s.params.bareProcessor then 0xFF else 0x3F

/-- One cycle of the level-triggered channels: the trigger repeats as long as the level lasts (R334). -/
def State.sampleLevels (s : State) : State :=
  let levels := s.irq.conf.extractLsb' 0 8 &&& ~~~(s.lines ^^^ s.irq.conf.extractLsb' 8 8)
  { s with irq := { s.irq with pend := s.irq.pend ||| (levels &&& s.irq.mask &&& s.presentChannels) } }

/-- A pulse on a channel. -/
def State.pulse (s : State) (ch : Nat) : State := { s with irq := s.irq.pulse ch }

/-- The Wishbone registers replaced, with what that does to the adapter's line (R410). -/
def State.setWishbone (s : State) (w : Wishbone) : State :=
  { s with wb := w, irq := s.irq.lineChange chWishbone s.wb.line w.line }

/-! ## The interrupt conditions of the core -/

/-- The EXT_INT_0 request: the pin CRITICAL_IRQ_I, active high, by level; absent from the base setup (R283, D20, D28). -/
def State.request0 (s : State) : Bool := s.params.bareProcessor && s.pins.critical

/-- The EXT_INT_1 request (R284). -/
def State.request1 (s : State) : Bool := s.irq.request

/-- The interrupt that may be taken, the critical one first (R283, R284, R287, R288). -/
def State.interruptPending (s : State) : Option Trap :=
  if s.msr.getLsbD bitGX then
    if s.msr.getLsbD bitX0 && s.request0 then some .critical
    else if s.msr.getLsbD bitX1 && s.request1 then some .controller
    else none
  else none

/-- Whether a sleeping core is woken: GX does not matter (R252). -/
def State.wakes (s : State) : Bool := (s.msr.getLsbD bitX0 && s.request0) || (s.msr.getLsbD bitX1 && s.request1)

/-- The core falls asleep (R28, R252). -/
def State.fallAsleep (s : State) : State := { s with sleeping := true }

/-- A sleeping core whose request is active wakes at once: into the interrupt with GX set, to the next instruction with
GX clear (R252, R253 d). Every other state stays as it is. -/
def State.wakeUp (s : State) : State :=
  if s.sleeping && s.wakes then
    match s.interruptPending with
    | some t => s.takeInterrupt t
    | none => { s with sleeping := false }
  else s

/-! ## The main clock -/

/-- Whether the main clock runs the machine: CE_I, the global clock enable, halts the bare processor (R31, R63). -/
def State.clocked (s : State) : Bool := !s.params.bareProcessor || s.pins.ce

/-- `t` where the clock runs, and otherwise nothing happens: a halted processor makes no step (R63). -/
def State.whenClocked (s t : State) : State := if s.clocked then t else s

/-! ## Timer -/

/-- The counters after one cycle of the main clock, before the match (R341). -/
def Timer.count (t : Timer) : Timer :=
  if t.pre = t.prsc then { t with pre := 0, cnt := t.cnt + 1 } else { t with pre := t.pre + 1 }

/-- One cycle of a timer, and whether it pulses channel 0 (R341, R343). -/
def Timer.cycle (t : Timer) : Timer × Bool :=
  if t.thr = 0#16 then (t, false)
  else
    let u := t.count
    if u.cnt = t.thr then ({ u with cnt := 0 }, true) else (u, false)

/-- One cycle of the timer. -/
def State.timerCycle (s : State) : State :=
  match s.timer.cycle with
  | (t, true) => { s with timer := t, irq := s.irq.pulse chTimer }
  | (t, false) => { s with timer := t }

/-- A write of timer_cnt (R341). -/
def State.writeTimerCnt (s : State) (v : Word) : State := { s with timer := { s.timer with cnt := v } }

/-- A write of timer_thr resets the counter and the pre-counter (R341). -/
def State.writeTimerThr (s : State) (v : Word) : State := { s with timer := { s.timer with thr := v, cnt := 0, pre := 0 } }

/-- A write of timer_prsc resets the counter and the pre-counter (R341). -/
def State.writeTimerPrsc (s : State) (v : Word) : State := { s with timer := { s.timer with prsc := v, cnt := 0, pre := 0 } }

/-- One cycle of the main clock: the timer, then the level-triggered channels (R334, R341). -/
def State.clockCycle (s : State) : State := s.timerCycle.sampleLevels

/-! ## LFSR -/

/-- One step of the LFSR (R351). -/
def Lfsr.step (l : Lfsr) : Lfsr := { l with data := Config.lfsrNext l.data (l.poly.extractLsb' 0 15) }

/-- `k` steps of the LFSR. -/
def Lfsr.steps (l : Lfsr) : Nat → Lfsr
  | 0 => l
  | k + 1 => (l.steps k).step

/-- Whether the LFSR runs free: lfsr_poly bit 15 (R350). -/
def Lfsr.freeRunning (l : Lfsr) : Bool := l.poly.getLsbD 15

/-- The LFSR brought up to now: an open number of steps while it runs free (R351). -/
def State.catchUpLfsr (s : State) : State :=
  if s.lfsr.freeRunning then { s.drawn with lfsr := s.lfsr.steps (Config.lfsrSteps s.draws) } else s

/-- A read of lfsr_data: the value before the step in read mode, the value of the moment in free-running mode (R351). -/
def State.readLfsr (s : State) : Word × State :=
  if s.lfsr.freeRunning then (s.catchUpLfsr.lfsr.data, s.catchUpLfsr) else (s.lfsr.data, { s with lfsr := s.lfsr.step })

/-- A write of lfsr_data, the seed (R351). -/
def State.writeLfsrData (s : State) (v : Word) : State := { s with lfsr := { s.lfsr with data := v } }

/-- A write of lfsr_poly; a free-running LFSR has stepped until now (R350, R351; notes/assumptions/17.md). -/
def State.writeLfsrPoly (s : State) (v : Word) : State :=
  let u := s.catchUpLfsr
  { u with lfsr := { u.lfsr with poly := v } }

end Sys2Proof.Machine
end

