-- ==== Sys2Proof/Machine/Bus.lean ====
section
/-! DEFINITION. Module c3 of the system coprocessor: the Wishbone adapter (spec/61_system_coprocessor.md R400 to R412). -/

namespace Sys2Proof.Machine

/-- The number of words of a burst (R404). -/
def State.burstWords (s : State) : Nat := s.wb.burst.toNat + s.params.wbBurstBias.val

/-- The bus address of the i-th word (R403). -/
def Wishbone.address (w : Wishbone) (i : Nat) : BitVec 32 := (w.baseH ++ w.baseL) + BitVec.ofNat 32 i * w.offs.signExtend 32

/-- ctrl as it is read (R405). -/
def Wishbone.ctrl (w : Wishbone) : Word :=
  w.burst ++ (BitVec.ofBool w.dir ++ (BitVec.ofBool w.busy ++ (BitVec.ofBool w.enTo ++ (BitVec.ofBool w.enErr
    ++ (BitVec.ofBool w.enDone ++ (BitVec.ofBool w.fTo ++ (BitVec.ofBool w.fErr ++ BitVec.ofBool w.fDone)))))))

/-- A read of ctrl clears the three flags (R405). -/
def State.readWbCtrl (s : State) : Word × State :=
  (s.wb.ctrl, s.setWishbone { s.wb with fDone := false, fErr := false, fTo := false })

/-- A write of ctrl: burst size and enables (R405). Refused while busy (R402). -/
def State.writeWbCtrl (s : State) (v : Word) : Except Refusal State :=
  if s.wb.busy then .error .wishboneBusy
  else
    .ok (s.setWishbone
      { s.wb with burst := highByte v, enDone := v.getLsbD 3, enErr := v.getLsbD 4, enTo := v.getLsbD 5 })

/-- A write of a Wishbone register that has no effect besides its value (R403, R409). Refused while busy (R402). -/
def State.writeWbReg (s : State) (w : Wishbone) : Except Refusal State :=
  if s.wb.busy then .error .wishboneBusy else .ok { s with wb := w }

/-- A write of rtx_fifo appends to the TX FIFO (R406). -/
def State.pushTx (s : State) (v : Word) : Except Refusal State :=
  if s.wb.busy then .error .wishboneBusy
  else if s.wb.aborted then .error .fifoAfterAbort
  else if s.params.wbFifoDepth ≤ s.wb.tx.length then .error .txFifoFull
  else .ok { s with wb := { s.wb with tx := s.wb.tx ++ [v] } }

/-- A read of rtx_fifo removes the oldest word of the RX FIFO; the empty FIFO shows a free value (R407). -/
def State.popRx (s : State) : Except Refusal (Word × State) :=
  if s.wb.busy && !s.wb.dir then .error .rxFifoInTransfer
  else if s.wb.aborted then .error .fifoAfterAbort
  else
    match s.wb.rx with
    | [] => .ok (Config.rxEmptyWord s.draws, s.drawn)
    | w :: ws => .ok (w, { s with wb := { s.wb with rx := ws } })

/-- The start of a transfer (R408). -/
def State.startTransfer (s : State) (write : Bool) : State :=
  { s with wb := { s.wb with busy := true, dir := write, left := s.burstWords, done := 0 } }

/-- The commands of module c3 (R402, R404, R408). -/
def State.wishboneCommand (s : State) (cmd : BitVec 3) : Except Refusal State :=
  if s.wb.busy then .error .wishboneBusy
  else
    match cmd.toNat with
    | 0 => if s.params.wbFifoDepth < s.burstWords then .error .burstTooLong else .ok (s.startTransfer false)
    | 1 =>
      if s.params.wbFifoDepth < s.burstWords then .error .burstTooLong
      else if s.wb.aborted then .error .fifoAfterAbort
      else if s.wb.tx.length < s.burstWords then .error .txFifoShort
      else .ok (s.startTransfer true)
    | _ => .error .cdpReservedCommand

/-- The end of a transfer: not busy, the base address registers hold open values (R403, R408), the flags as given. -/
def State.endTransfer (s : State) (w : Wishbone) : State :=
  { s with draws := s.draws + 2 }.setWishbone
    { w with
      busy := false, left := 0, done := 0, baseL := Config.baseAfter s.draws, baseH := Config.baseAfter (s.draws + 1) }

/-- The end after an error or a timeout: the FIFOs hold any contents (R408). -/
def State.abortTransfer (s : State) (w : Wishbone) : State :=
  { s with draws := s.draws + 2 }.endTransfer
    { w with
      aborted := true
      tx := (Config.fifoContents s.draws).take s.params.wbFifoDepth
      rx := (Config.fifoContents (s.draws + 1)).take s.params.wbFifoDepth }

/-- The end after all words: done, and the FIFOs may be used again (R408). -/
def State.completeTransfer (s : State) : State := s.endTransfer { s.wb with fDone := true, aborted := false }

/-- A word appended to the RX FIFO; one word more than it holds leaves open contents (notes/assumptions/15.md). -/
def State.pushRx (s : State) (w : Word) : State :=
  if s.wb.rx.length < s.params.wbFifoDepth then { s with wb := { s.wb with rx := s.wb.rx ++ [w] } }
  else
    { s.drawn with
      wb := { s.wb with rx := (Config.fifoContents s.draws).take s.params.wbFifoDepth } }

/-- What the host sees of the next access of a transfer: the address, with the word of a write (R408). -/
def State.wishboneAccess (s : State) : HostOutput :=
  if s.wb.dir then .wishboneWrite (s.wb.address s.wb.done) (s.wb.tx.headD 0) else .wishboneRead (s.wb.address s.wb.done)

/-- The words moved by an acknowledged access: the TX FIFO loses its oldest word, or the RX FIFO gains one (R408). -/
def State.moveWord (s : State) (w : Word) : State :=
  let u := if s.wb.dir then { s with wb := { s.wb with tx := s.wb.tx.tail } } else s.pushRx w
  { u with wb := { u.wb with left := s.wb.left - 1, done := s.wb.done + 1 } }

/-- The transfer completes when no word is left to move (R408). -/
def State.finishIfDone (s : State) : State := if s.wb.left = 0 then s.completeTransfer else s

/-- The host answers the next access of the transfer in progress (R408 to R410). -/
def State.wishboneReply (s : State) (r : WbReply) : State :=
  if s.wb.busy then
    if s.wb.left = 0 then s.completeTransfer
    else
      let seen := s.emit s.wishboneAccess
      match r with
      | .ack w => (seen.moveWord w).finishIfDone
      | .err => seen.abortTransfer { seen.wb with fErr := true }
      | .timeout => seen.abortTransfer { seen.wb with fTo := true }
  else s

end Sys2Proof.Machine
end

