-- ==== Sys2Proof/Machine/Comm.lean ====
section
/-! DEFINITION. Module c2 of the system coprocessor: UART, SPI and parallel ports
(spec/61_system_coprocessor.md R370 to R393), as registers and as the actions of their agents. -/

namespace Sys2Proof.Machine

/-! ## com_ctrl -/

/-- The writable bits of com_ctrl: 2:0, 4, 6 and 15:8 (R331). -/
def comCtrlMask : Word := 0xFF57

/-- Bits of com_ctrl: SPI busy, SPI auto apply, UART transmitter busy, UART activated (R331). -/
def bitSpiBusy : Nat := 3
def bitSpiAuto : Nat := 4
def bitUartBusy : Nat := 5
def bitUartOn : Nat := 6

/-- A read of com_ctrl: the stored bits with the two busy flags (R331, R373, R383). -/
def State.readComCtrl (s : State) : Word := setBit (setBit s.comCtrl bitSpiBusy s.spi.busy) bitUartBusy s.uart.txBusy

/-- A write of com_ctrl: read-only bits are ignored (R331, D18); refused while the SPI is busy, for it writes the SPI
fields (R383, D30). -/
def State.writeComCtrl (s : State) (v : Word) : Except Refusal State :=
  if s.spi.busy then .error .spiBusy else .ok { s with comCtrl := v &&& comCtrlMask }

/-! ## UART -/

/-- Whether the UART is activated (R371). -/
def State.uartOn (s : State) : Bool := s.comCtrl.getLsbD bitUartOn

/-- A read of uart_rtx_sd clears the data-ready flag (R374). -/
def State.readUart (s : State) : Word × State :=
  (BitVec.ofBool s.uart.rxReady ++ (0#7 ++ s.uart.rxData), { s with uart := { s.uart with rxReady := false } })

/-- A write of uart_rtx_sd starts a transmission; the byte goes to the host's record (R373). Refused while powered down
or busy (R371, R373, D29). -/
def State.writeUart (s : State) (v : Word) : Except Refusal State :=
  if !s.uartOn then .error .uartPoweredDown
  else if s.uart.txBusy then .error .uartBusy
  else .ok ({ s with uart := { s.uart with txShift := lowByte v, txBusy := true } }.emit (.uartByte (lowByte v)))

/-- The transmission ends: a pulse on channel 3 (R373). -/
def State.uartSent (s : State) : State :=
  if s.uart.txBusy then { s with uart := { s.uart with txBusy := false } }.pulse chUartTx else s

/-- A byte arrives: nothing while powered down (R371); on overrun either byte is kept, a free value (R374). -/
def State.uartReceived (s : State) (b : Byte) : State :=
  if s.uartOn then
    if s.uart.rxReady then
      let kept := if Config.overrunKeepsOld s.draws then s.uart.rxData else b
      { s.drawn with uart := { s.uart with rxData := kept } }.pulse chUartRx
    else { s with uart := { s.uart with rxData := b, rxReady := true } }.pulse chUartRx
  else s

/-! ## SPI -/

/-- A read of spi_data; a free value while busy (R383). -/
def State.readSpi (s : State) : Word × State :=
  if s.spi.busy then (Config.spiBusyData s.draws, s.drawn) else (s.spi.data, s)

/-- A write of spi_data starts a transfer (R383). -/
def State.writeSpi (s : State) (v : Word) : Except Refusal State :=
  if s.spi.busy then .error .spiBusy
  else .ok ({ s with spi := { s.spi with data := v, busy := true } }.emit (.spiExchange v s.spi.cs s.comCtrl))

/-- A write of spi_cs (R384). -/
def State.writeSpiCs (s : State) (v : Word) : Except Refusal State :=
  if s.spi.busy then .error .spiBusy else .ok { s with spi := { s.spi with cs := lowByte v } }

/-- The transfer ends with the word the host supplies: a pulse on channel 4 (R383). -/
def State.spiFinished (s : State) (w : Word) : State :=
  if s.spi.busy then { s with spi := { s.spi with data := w, busy := false } }.pulse chSpi else s

/-- The pins SPI_CS_O, low-active (R384). -/
def State.spiCsPins (s : State) : Byte :=
  if !s.comCtrl.getLsbD bitSpiAuto || s.spi.busy then ~~~s.spi.cs else 0xFF

/-- The number of bits of an SPI transfer (R382). -/
def State.spiLength (s : State) : Nat := (s.comCtrl.extractLsb' 8 4).toNat + 1

/-! ## Parallel ports -/

/-- PIO_IN_I is sampled: a pulse on channel 5 when a pin has changed since the previous sample (R390). -/
def State.samplePio (s : State) : State :=
  let u := { s with seen := { s.seen with pioIn := s.pins.pioIn } }
  if s.pins.pioIn = s.seen.pioIn then u else u.pulse chPio

/-- The host drives PIO_IN_I (R390). -/
def State.pioPins (s : State) (v : Word) : State :=
  let u := { s with pins := { s.pins with pioIn := v } }
  u.whenClocked u.samplePio

/-- A write of pio_out (R391). -/
def State.writePioOut (s : State) (v : Word) : State := { s with pio := { s.pio with out := v } }

/-- A read of sys_io (R392). -/
def State.readSysIo (s : State) : Word := s.pio.sysOut ++ s.pins.sysIn

/-- A write of sys_io stores bits 15:8 (R392). -/
def State.writeSysIo (s : State) (v : Word) : State := { s with pio := { s.pio with sysOut := highByte v } }

/-! ## The output pins -/

/-- What the output pins of `t` show other than those of `s`, for the host's record (R384, R391, R392, R425). -/
def pinChanges (s t : State) : List HostOutput :=
  (if t.pio.out = s.pio.out then [] else [.pioOut t.pio.out])
    ++ (if t.pio.sysOut = s.pio.sysOut then [] else [.sysOut t.pio.sysOut])
    ++ if t.spiCsPins = s.spiCsPins then [] else [.spiCs t.spiCsPins]

/-- `t` with the change of its output pins since `s` in the host's record (R425). -/
def State.showPins (s t : State) : State := { t with record := t.record ++ pinChanges s t }

end Sys2Proof.Machine
end

