-- ==== Sys2Proof/Machine/Agents.lean ====
section
/-! DEFINITION. What the agents besides the core do in one turn (spec/00_scope.md R7): the main clock, the devices, the
host and the hardware reset. -/

namespace Sys2Proof.Machine

/-- The input pins at a hardware reset: the levels the host drives, with BOOT_CONFIG on SYS_IN_I(1:0) (R3, R427). -/
def State.resetPins (s : State) : Pins := { s.pins with sysIn := s.pins.sysIn.extractLsb' 2 6 ++ s.params.bootConfig }

/-- The hardware reset (R33, R420): the state of R32, with the memories (R421), the pins, their samples and the model's
own fields as they are (notes/assumptions/24.md). -/
def State.hardReset (s : State) : State :=
  { State.resetWith s.params with
    ram := s.ram, rom := s.rom, pins := s.resetPins,
    seen := { pioIn := s.pins.pioIn, irq0 := s.pins.irq0, irq1 := s.pins.irq1 },
    script := s.script, record := s.record, draws := s.draws }

/-- IRQ_I(0) is sampled: channel 6 (R332, R333), which the base setup does not bring out (D28). -/
def State.sampleIrq0 (s : State) : State :=
  let u := { s with seen := { s.seen with irq0 := s.pins.irq0 } }
  if s.params.bareProcessor then { u with irq := s.irq.lineChange chPin0 s.seen.irq0 s.pins.irq0 } else u

/-- IRQ_I(1) is sampled: channel 7 (R332, R333, D28). -/
def State.sampleIrq1 (s : State) : State :=
  let u := { s with seen := { s.seen with irq1 := s.pins.irq1 } }
  if s.params.bareProcessor then { u with irq := s.irq.lineChange chPin1 s.seen.irq1 s.pins.irq1 } else u

/-- The host drives IRQ_I(0). -/
def State.driveIrq0 (s : State) (level : Bool) : State :=
  let u := { s with pins := { s.pins with irq0 := level } }
  u.whenClocked u.sampleIrq0

/-- The host drives IRQ_I(1). -/
def State.driveIrq1 (s : State) (level : Bool) : State :=
  let u := { s with pins := { s.pins with irq1 := level } }
  u.whenClocked u.sampleIrq1

/-- The host drives CE_I: when the clock of a halted processor starts again, it samples the pins that changed meanwhile
(R31, R63; notes/assumptions/34.md). -/
def State.driveCe (s : State) (level : Bool) : State :=
  let u := { s with pins := { s.pins with ce := level } }
  if s.clocked then u else u.whenClocked u.samplePio.sampleIrq0.sampleIrq1

/-- The host changes a word of the memory it supplies to the bare processor; the base setup has no such host (R7, R65;
notes/assumptions/34.md). -/
def State.hostMemory (s : State) (page a w : Word) : State :=
  if s.params.bareProcessor && !inRom page then { s with ram := s.ram.writeWord (ramAddress s.params page a) w } else s

/-- One turn of an agent other than the core (R7). The devices stand still while CE_I halts the processor (R63). -/
def agentAct (e : AgentEvent) (s : State) : State :=
  match e with
  | .clock => s.whenClocked s.clockCycle
  | .uartReceived b => s.whenClocked (s.uartReceived b)
  | .uartSent => s.whenClocked s.uartSent
  | .spiFinished w => s.whenClocked (s.spiFinished w)
  | .pioPins v => s.pioPins v
  | .sysPins v => { s with pins := { s.pins with sysIn := v } }
  | .irqPin0 level => s.driveIrq0 level
  | .irqPin1 level => s.driveIrq1 level
  | .criticalPin level => { s with pins := { s.pins with critical := level } }
  | .clockEnable level => s.driveCe level
  | .hostMemory page a w => s.hostMemory page a w
  | .wishbone r => s.whenClocked (s.wishboneReply r)
  | .reset => s.hardReset

end Sys2Proof.Machine
end

