-- ==== Sys2Proof/Machine/Fetch.lean ====
section
/-! DEFINITION. Fetching and decoding the instruction at the program counter (spec/20_memory.md R55, R59), and placing
a word there. -/

namespace Sys2Proof.Machine

/-- Fetch(pc) (R59). -/
def State.fetch (s : State) : Except Fault Word := s.wordAt s.fetchPage s.pc

/-- The instruction at the program counter, or why there is none (R59, R105). -/
def State.current (s : State) : Result Instr :=
  match s.fetch with
  | .error f => .fault f
  | .ok w =>
    match decodeBytes [lowByte w, highByte w] with
    | .ok i => .next i
    | .error r => .refused (.reservedWord r)

/-- `s` with the two bytes of an opcode-table word stored where the next fetch reads them: this stands for the host's
loading of a program (notes/assumptions/5.md). -/
def State.placeWord (s : State) (nbits w : Nat) : State :=
  let word : Word := BitVec.ofNat 16 (w % 2 ^ nbits)
  if inRom s.fetchPage then { s with rom := s.rom.writeWord (romAddress s.pc) word }
  else { s with ram := s.ram.writeWord (ramAddress s.params s.fetchPage s.pc) word }

end Sys2Proof.Machine
end

