-- ==== Sys2Proof/Machine/Boundary.lean ====
section
/-! DEFINITION. The boundaries between instructions: which instructions are taken transfers of control, which load a
register and which use it, and where an interrupt may enter (spec/60_exceptions.md R289,
spec/70_reset_and_hazards.md R436, R440). -/

namespace Sys2Proof.Machine

/-- Whether an instruction is a taken control transfer (R55: STPC, RBA, RBR, a taken B; BL with it). -/
def State.transfersControl (s : State) (i : Instr) : Bool :=
  match i with
  | .stpc .. => true
  | .b cond _ => s.cond cond
  | .bl cond _ => s.cond cond
  | .rba _ cond _ => s.cond cond
  | .rbr _ cond _ => s.cond cond
  | .inc .. | .dec .. | .add .. | .adc .. | .sub .. | .neg .. | .sbc .. | .nec .. | .cmp .. | .ldsr .. | .cpx .. | .stsr ..
  | .staf .. | .and .. | .stub .. | .orr .. | .ldub .. | .eor .. | .nand .. | .bic .. | .teq .. | .tst .. | .ldpc ..
  | .sft .. | .ldr .. | .str .. | .swp .. | .ldil .. | .ldih .. | .cbr .. | .sbr .. | .ldb .. | .stb .. | .stbi ..
  | .spr .. | .spri .. | .stbr .. | .stbri .. | .cdp .. | .mrc .. | .mcr .. | .mul .. | .sleep .. | .mv ..
  | .syscall .. => false

/-- The register of an offset. -/
def offsetUses (off : Offset) : List Reg :=
  match off with
  | .imm _ => []
  | .reg r => [r]

/-- The registers of the current bank whose values an instruction uses (R436, R440). -/
def usesOf (i : Instr) : List Reg :=
  match i with
  | .inc _ ra _ _ => [ra] | .dec _ ra _ _ => [ra]
  | .add _ ra _ rb => [ra, rb] | .adc _ ra _ rb => [ra, rb]
  | .sub _ ra _ rb => [ra, rb] | .sbc _ ra _ rb => [ra, rb]
  | .neg _ ra _ => [ra] | .nec _ ra _ => [ra]
  | .cmp ra rb => [ra, rb] | .cpx _ _ ra rb => [ra, rb]
  | .and _ ra _ rb => [ra, rb] | .orr _ ra _ rb => [ra, rb] | .eor _ ra _ rb => [ra, rb]
  | .nand _ ra _ rb => [ra, rb] | .bic _ ra _ rb => [ra, rb]
  | .teq ra rb => [ra, rb] | .tst ra rb => [ra, rb]
  | .sft _ ra _ _ => [ra]
  | .ldub .. => [] | .stub _ ra _ => [ra]
  | .ldpc .. => [] | .stpc _ ra _ _ => [ra]
  | .ldsr .. => [] | .stsr _ rb => [rb] | .staf .. => []
  | .ldr _ _ _ ra off => ra :: offsetUses off
  | .str _ _ rd ra off => rd :: ra :: offsetUses off
  | .swp _ ra rb => [ra, rb]
  | .b .. => [] | .bl .. => []
  | .rba _ _ rb => [rb] | .rbr _ _ rb => [rb]
  | .ldil .. => [] | .ldih rd _ => [rd]
  | .cbr _ ra _ => [ra] | .sbr _ ra _ => [ra] | .ldb _ ra _ => [ra]
  | .stb ra _ => [ra] | .stbi ra _ => [ra] | .spr ra => [ra] | .spri ra => [ra]
  | .stbr ra ri => [ra, ri] | .stbri ra ri => [ra, ri]
  | .cdp .. => [] | .mrc .. => [] | .mcr _ _ ra _ => [ra]
  | .mul _ ra rb => [ra, rb]
  | .mv _ _ rb => [rb]
  | .sleep .. => [] | .syscall .. => []

/-- The register an instruction loads from the data memory (R436, R440): LDR, and SWP with its load. -/
def loadsInto (i : Instr) : Option Reg :=
  match i with
  | .ldr _ _ rd _ _ => some rd
  | .swp rd _ _ => some rd
  | .inc .. | .dec .. | .add .. | .adc .. | .sub .. | .neg .. | .sbc .. | .nec .. | .cmp .. | .ldsr .. | .cpx .. | .stsr ..
  | .staf .. | .and .. | .stub .. | .orr .. | .ldub .. | .eor .. | .nand .. | .bic .. | .teq .. | .tst .. | .ldpc ..
  | .sft .. | .str .. | .stpc .. | .b .. | .bl .. | .ldil .. | .ldih .. | .cbr .. | .sbr .. | .ldb .. | .stb .. | .stbi ..
  | .spr .. | .spri .. | .stbr .. | .stbri .. | .cdp .. | .mrc .. | .mcr .. | .mul .. | .sleep .. | .rba .. | .rbr ..
  | .mv .. | .syscall .. => none

/-- The boundary that instruction `i` leaves behind itself (R289, R440; notes/assumptions/35.md). -/
def State.boundaryAfter (s : State) (i : Instr) : Boundary :=
  if s.transfersControl i then .afterBranch
  else
    match loadsInto i with
    | some rd => .afterLoad rd
    | none => .free

/-- Whether an interrupt may be taken at this boundary: not directly behind a taken branch, and not between a load and an
instruction that uses the loaded value (R289, R440). -/
def State.boundaryOpen (s : State) : Bool :=
  match s.boundary with
  | .free => true
  | .afterBranch => false
  | .afterLoad rd =>
    match s.current with
    | .next i => !(usesOf i).contains rd
    | .fault _ => true
    | .refused _ => true

end Sys2Proof.Machine
end

