-- ==== Sys2Proof/Machine/Operands.lean ====
section
/-! DEFINITION. The operand forms: the address computation of LDR and STR (spec/44_memory_access.md R191) and the
immediates (spec/30_encoding.md R90). -/

namespace Sys2Proof.Machine

/-- The unsigned 3-bit immediate of INC and DEC (R120). -/
def imm3 (n : BitVec 3) : Word := n.zeroExtend 16

/-- `off` of R191. -/
def State.offset (s : State) : Offset → Word
  | .imm n => n.zeroExtend 16
  | .reg r => s.reg r

/-- `eff` of R191: base plus or minus offset, modulo 2^16. -/
def State.effective (s : State) (up : Bool) (ra : Reg) (off : Offset) : Word :=
  if up then s.reg ra + s.offset off else s.reg ra - s.offset off

/-- `addr` of R191: the effective address for pre-indexing, the base for post-indexing. -/
def State.accessAddress (s : State) (ix : Indexing) (up : Bool) (ra : Reg) (off : Offset) : Word :=
  match ix with
  | .pre | .preWriteback => s.effective up ra off
  | .postWriteback => s.reg ra

/-- The base register after the access (R192, R193). -/
def State.writeBack (s : State) (ix : Indexing) (ra : Reg) (eff : Word) : State :=
  if ix.writesBack then s.setReg ra eff else s

/-- The immediate of LDIL, sign extended (spec/46_load_immediate.md R216). -/
def immLow (imm : BitVec 8) : Word := imm.signExtend 16

/-- The register after LDIH: the high byte replaced (R217). -/
def withHighByte (imm : BitVec 8) (old : Word) : Word := imm ++ old.extractLsb' 0 8

/-- The register with one bit given a value (spec/47_bit_manipulation.md R221 to R223). -/
def withBit (w : Word) (bit : BitVec 4) (v : Bool) : Word := setBit w bit.toNat v

/-- The bit index in the lowest four bits of an index register (R228). -/
def indexOf (w : Word) : BitVec 4 := w.extractLsb' 0 4

end Sys2Proof.Machine
end

