-- ==== Sys2Proof/Machine/BitManipulation.lean ====
section
/-! DEFINITION. The bit manipulation instructions (spec/47_bit_manipulation.md R220 to R232). -/

namespace Sys2Proof.Machine

/-- The end of a store to the T flag of the current mode (R220). -/
def State.finishT (s : State) (v : Bool) : State := (s.setFlag .t v).advance

/-- CBR (R221). -/
def execCbr (rd ra : Reg) (bit : BitVec 4) (s : State) : Result State :=
  .next (s.setReg rd (withBit (s.reg ra) bit false)).advance

/-- SBR (R222). -/
def execSbr (rd ra : Reg) (bit : BitVec 4) (s : State) : Result State :=
  .next (s.setReg rd (withBit (s.reg ra) bit true)).advance

/-- LDB (R223). -/
def execLdb (rd ra : Reg) (bit : BitVec 4) (s : State) : Result State :=
  .next (s.setReg rd (withBit (s.reg ra) bit (s.flag .t))).advance

/-- STB (R224). -/
def execStb (ra : Reg) (bit : BitVec 4) (s : State) : Result State :=
  .next (s.finishT ((s.reg ra).getLsbD bit.toNat))

/-- STBI (R225). -/
def execStbi (ra : Reg) (bit : BitVec 4) (s : State) : Result State :=
  .next (s.finishT (!(s.reg ra).getLsbD bit.toNat))

/-- SPR (R226). -/
def execSpr (ra : Reg) (s : State) : Result State := .next (s.finishT (parity (s.reg ra)))

/-- SPRI (R227). -/
def execSpri (ra : Reg) (s : State) : Result State := .next (s.finishT (!parity (s.reg ra)))

/-- STBR (R228). -/
def execStbr (ra ri : Reg) (s : State) : Result State :=
  .next (s.finishT ((s.reg ra).getLsbD (indexOf (s.reg ri)).toNat))

/-- STBRI (R229). -/
def execStbri (ra ri : Reg) (s : State) : Result State :=
  .next (s.finishT (!(s.reg ra).getLsbD (indexOf (s.reg ri)).toNat))

end Sys2Proof.Machine
end

