-- ==== Sys2Proof/Machine/Branch.lean ====
section
/-! DEFINITION. The relative branches (spec/45_branch.md R205 to R209) and the register-based branches
(spec/49_misc.md R254 to R257). -/

namespace Sys2Proof.Machine

/-- The link register takes the address of the next instruction when a linked branch is taken (R209, R256). -/
def State.linkIf (s : State) (link : Bool) : State := if link then s.setReg .r7 (s.pc + 2) else s

/-- B (R207). -/
def execB (cond : Cond) (off : BitVec 9) (s : State) : Result State :=
  if s.cond cond then .next (s.setPc (branchTarget s.pc off)) else .next s.advance

/-- BL (R209). -/
def execBl (cond : Cond) (off : BitVec 9) (s : State) : Result State :=
  if s.cond cond then .next ((s.linkIf true).setPc (branchTarget s.pc off)) else .next s.advance

/-- RBA: the register is read before the link is written (R254, D22). -/
def execRba (link : Bool) (cond : Cond) (rb : Reg) (s : State) : Result State :=
  if s.cond cond then .next ((s.linkIf link).setPc (clearBit0 (s.reg rb))) else .next s.advance

/-- RBR: the register is a byte offset from the instruction itself (R255, D17). -/
def execRbr (link : Bool) (cond : Cond) (rb : Reg) (s : State) : Result State :=
  if s.cond cond then .next ((s.linkIf link).setPc (clearBit0 (s.pc + s.reg rb))) else .next s.advance

end Sys2Proof.Machine
end

