-- ==== Sys2Proof/Machine/Coprocessor.lean ====
section
/-! DEFINITION. The coprocessor interface (spec/48_coprocessor.md R235 to R243) and the register map of the system
coprocessor (spec/61_system_coprocessor.md R331). -/

namespace Sys2Proof.Machine

/-- Which mode may access which coprocessor (R239). -/
def State.cpAllowed (s : State) (cp : Cp) : Bool :=
  match cp with
  | .cp0 => s.inSystem || !s.msr.getLsbD bitCP
  | .cp1 => s.inSystem

/-! ## Module c1, the MMU -/

/-- A read of mmu_sys_info shows the halves of CLK_SPEED in turn (R367). -/
def State.readSysInfo (s : State) : Word × State :=
  (if s.mmu.infoSel then s.params.clkSpeed.extractLsb' 0 16 else s.params.clkSpeed.extractLsb' 16 16,
    { s with mmu := { s.mmu with infoSel := !s.mmu.infoSel } })

/-- A write of mmu_sys_i_page, the current I-page: the next fetch still uses the old one (R55, R361). -/
def State.writeSysI (s : State) (v : Word) : State := { s with mmu := { s.mmu with sysI := v, iOld := some s.mmu.sysI } }

/-- A write of mmu_sys_d_page, the current D-page: the data accesses of the next two instructions may still use the old
one (R55, R361). -/
def State.writeSysD (s : State) (v : Word) : State :=
  { s with mmu := { s.mmu with sysD := v, dOld := (s.mmu.sysD, 2) :: s.mmu.dOld } }

/-! ## The register map -/

/-- A read of register `r` of module `m` with its side effects; unlisted registers read 0 (R331). -/
def State.sysRead (s : State) (m r : BitVec 3) : Except Refusal (Word × State) :=
  match m.toNat, r.toNat with
  | 0, 0 => .ok s.readIrqSm
  | 0, 1 => .ok (s.irq.conf, s)
  | 0, 2 => .ok (s.timer.cnt, s)
  | 0, 3 => .ok (s.timer.thr, s)
  | 0, 4 => .ok (s.timer.prsc, s)
  | 0, 5 => .ok s.readLfsr
  | 0, 6 => .ok (s.lfsr.poly, s)
  | 1, 0 => .ok (s.mmu.irqBase, s)
  | 1, 1 => .ok (s.mmu.sysI, s)
  | 1, 2 => .ok (s.mmu.sysD, s)
  | 1, 3 => .ok (s.mmu.usrI, s)
  | 1, 4 => .ok (s.mmu.usrD, s)
  | 1, 5 => .ok (s.mmu.iLink, s)
  | 1, 6 => .ok (s.mmu.dLink, s)
  | 1, 7 => .ok s.readSysInfo
  | 2, 0 => .ok s.readUart
  | 2, 1 => .ok (s.uart.prsc, s)
  | 2, 2 => .ok (s.readComCtrl, s)
  | 2, 3 => .ok s.readSpi
  | 2, 4 => .ok (s.spi.cs.zeroExtend 16, s)
  | 2, 5 => .ok (s.pins.pioIn, s)
  | 2, 6 => .ok (s.pio.out, s)
  | 2, 7 => .ok (s.readSysIo, s)
  | 3, 0 => .ok s.readWbCtrl
  | 3, 1 => .ok (s.wb.baseL, s)
  | 3, 2 => .ok (s.wb.baseH, s)
  | 3, 3 => .ok (s.wb.offs, s)
  | 3, 4 => s.popRx
  | 3, 5 => .ok (s.wb.timeout, s)
  | _, _ => .ok (0, s)

/-- A write of register `r` of module `m` with its side effects; unlisted and read-only registers ignore it (R331), and
every register of c3 refuses it while a transfer is in progress (R402). -/
def State.sysWrite (s : State) (m r : BitVec 3) (v : Word) : Except Refusal State :=
  match m.toNat, r.toNat with
  | 0, 0 => .ok (s.writeIrqSm v)
  | 0, 1 => .ok (s.writeIrqConf v)
  | 0, 2 => .ok (s.writeTimerCnt v)
  | 0, 3 => .ok (s.writeTimerThr v)
  | 0, 4 => .ok (s.writeTimerPrsc v)
  | 0, 5 => .ok (s.writeLfsrData v)
  | 0, 6 => .ok (s.writeLfsrPoly v)
  | 1, 0 => .ok { s with mmu := { s.mmu with irqBase := v } }
  | 1, 1 => .ok (s.writeSysI v)
  | 1, 2 => .ok (s.writeSysD v)
  | 1, 3 => .ok { s with mmu := { s.mmu with usrI := v } }
  | 1, 4 => .ok { s with mmu := { s.mmu with usrD := v } }
  | 2, 0 => s.writeUart v
  | 2, 1 => .ok { s with uart := { s.uart with prsc := v } }
  | 2, 2 => s.writeComCtrl v
  | 2, 3 => s.writeSpi v
  | 2, 4 => s.writeSpiCs v
  | 2, 6 => .ok (s.writePioOut v)
  | 2, 7 => .ok (s.writeSysIo v)
  | 3, 0 => s.writeWbCtrl v
  | 3, 1 => s.writeWbReg { s.wb with baseL := v }
  | 3, 2 => s.writeWbReg { s.wb with baseH := v }
  | 3, 3 => s.writeWbReg { s.wb with offs := v }
  | 3, 4 => s.pushTx v
  | 3, 5 => s.writeWbReg { s.wb with timeout := v }
  | 3, _ => s.writeWbReg s.wb
  | _, _ => .ok s

/-! ## The three transactions -/

/-- The nine bits of CP_CMD_O: operand A, operand B, command (R238). -/
def cpCommandBits (a b cmd : BitVec 3) : BitVec 9 := a ++ (b ++ cmd)

/-- A transaction shown to the coprocessor #0 port, when logic is attached to it (R243). -/
def State.cp0Transaction (s : State) (o : HostOutput) : State := if s.params.cp0Present then s.emit o else s

/-- CpRead: with no logic attached coprocessor #0 reads 0, with logic attached the host answers (R235, R243). `rd` is
the CPU register number, which the port carries beside the coprocessor's (R238). -/
def State.cpRead (s : State) (cp : Cp) (rd reg cmd : BitVec 3) : Except Refusal (Word × State) :=
  match cp with
  | .cp1 => s.sysRead reg cmd
  | .cp0 =>
    if s.params.cp0Present then
      .ok (Config.cp0Reply s.draws, s.drawn.cp0Transaction (.coprocessorRead (cpCommandBits rd reg cmd)))
    else .ok (0, s)

/-- CpWrite (R236, R243). -/
def State.cpWrite (s : State) (cp : Cp) (reg ra cmd : BitVec 3) (v : Word) : Except Refusal State :=
  match cp with
  | .cp1 => s.sysWrite reg cmd v
  | .cp0 => .ok (s.cp0Transaction (.coprocessorWrite (cpCommandBits reg ra cmd) v))

/-- CpCommand (R237, R243): on the system coprocessor two different register fields and a module other than c3 are
refused (D13; notes/assumptions/14.md), c3 runs its command. On coprocessor #0 the levels of CP_RW_O and CP_DAT_O, which R238
defines for data transfers alone, are not recorded (notes/assumptions/30.md). -/
def State.cpCommand (s : State) (cp : Cp) (ca cb cmd : BitVec 3) : Except Refusal State :=
  match cp with
  | .cp1 =>
    if ca ≠ cb then .error .cdpFieldsDiffer
    else if ca = 3#3 then s.wishboneCommand cmd
    else .error .cdpOtherModule
  | .cp0 => .ok (s.cp0Transaction (.coprocessorCommand (cpCommandBits ca cb cmd)))

end Sys2Proof.Machine
end

