-- ==== Sys2Proof/Machine/CoprocessorInstr.lean ====
section
/-! DEFINITION. The coprocessor instructions (spec/48_coprocessor.md R239 to R244). The protection is checked before
anything is presented to the coprocessor (R239). -/

namespace Sys2Proof.Machine

/-- CDP (R240). -/
def execCdp (cp : Cp) (ca cb : CReg) (cmd : BitVec 3) (s : State) : Result State :=
  if s.cpAllowed cp then
    match s.cpCommand cp ca cb cmd with
    | .ok t => .next t.advance
    | .error r => .refused r
  else .next (s.raiseTrap .commandError)

/-- MRC (R241). -/
def execMrc (cp : Cp) (rd : Reg) (ca : CReg) (cmd : BitVec 3) (s : State) : Result State :=
  if s.cpAllowed cp then
    match s.cpRead cp rd.toBits ca cmd with
    | .ok (v, t) => .next (t.setReg rd v).advance
    | .error r => .refused r
  else .next (s.raiseTrap .commandError)

/-- MCR (R242). -/
def execMcr (cp : Cp) (cd : CReg) (ra : Reg) (cmd : BitVec 3) (s : State) : Result State :=
  if s.cpAllowed cp then
    match s.cpWrite cp cd ra.toBits cmd (s.reg ra) with
    | .ok t => .next t.advance
    | .error r => .refused r
  else .next (s.raiseTrap .commandError)

end Sys2Proof.Machine
end

