-- ==== Sys2Proof/Machine/DataProcessing.lean ====
section
/-! DEFINITION. The data-processing instructions (spec/40_data_processing.md R120 to R151). -/

namespace Sys2Proof.Machine

/-- The end of a data-processing instruction that has a result (R120): the register, the flags when S is set, the next
instruction. -/
def State.finishAlu (s : State) (rd : Reg) (sf : Bool) (o : AluOut) : State :=
  ((s.setReg rd o.result).setAluFlagsIf sf o.flags).advance

/-- The end of a compare or test: flags only (R120). -/
def State.finishTest (s : State) (f : AluFlags) : State := (s.setAluFlags f).advance

/-- A subtraction in the sense of SUB_CARRY (R123). -/
def State.subtract (s : State) (a b : Word) (bin : Bool) : AluOut := subOut s.params.subCarry a b bin

/-- The borrow input of SBC, NEC and CPX (R123). -/
def State.borrowFrom (s : State) (cin : Bool) : Bool := borrowIn s.params.subCarry cin

/-- INC (R126). -/
def execInc (rd ra : Reg) (sf : Bool) (imm : BitVec 3) (s : State) : Result State :=
  .next (s.finishAlu rd sf (addOut (s.reg ra) (imm3 imm) false))

/-- DEC (R127). -/
def execDec (rd ra : Reg) (sf : Bool) (imm : BitVec 3) (s : State) : Result State :=
  .next (s.finishAlu rd sf (s.subtract (s.reg ra) (imm3 imm) false))

/-- ADD (R128). -/
def execAdd (rd ra : Reg) (sf : Bool) (rb : Reg) (s : State) : Result State :=
  .next (s.finishAlu rd sf (addOut (s.reg ra) (s.reg rb) false))

/-- ADC (R129). -/
def execAdc (rd ra : Reg) (sf : Bool) (rb : Reg) (s : State) : Result State :=
  .next (s.finishAlu rd sf (addOut (s.reg ra) (s.reg rb) (s.flag .c)))

/-- SUB (R130). -/
def execSub (rd ra : Reg) (sf : Bool) (rb : Reg) (s : State) : Result State :=
  .next (s.finishAlu rd sf (s.subtract (s.reg ra) (s.reg rb) false))

/-- NEG (R131). -/
def execNeg (rd ra : Reg) (sf : Bool) (s : State) : Result State :=
  .next (s.finishAlu rd sf (s.subtract 0 (s.reg ra) false))

/-- SBC (R132). -/
def execSbc (rd ra : Reg) (sf : Bool) (rb : Reg) (s : State) : Result State :=
  .next (s.finishAlu rd sf (s.subtract (s.reg ra) (s.reg rb) (s.borrowFrom (s.flag .c))))

/-- NEC (R133). -/
def execNec (rd ra : Reg) (sf : Bool) (s : State) : Result State :=
  .next (s.finishAlu rd sf (s.subtract 0 (s.reg ra) (s.borrowFrom (s.flag .c))))

/-- CMP (R134). -/
def execCmp (ra rb : Reg) (s : State) : Result State :=
  .next (s.finishTest (s.subtract (s.reg ra) (s.reg rb) false).flags)

/-- The flags of CPX: Z joins the old Z by AND or by OR (R135). -/
def cpxFlags (orZ oldZ : Bool) (f : AluFlags) : AluFlags :=
  { f with z := if orZ then oldZ || f.z else oldZ && f.z }

/-- CPX (R135). -/
def execCpx (notC orZ : Bool) (ra rb : Reg) (s : State) : Result State :=
  let cin := if notC then !s.flag .c else s.flag .c
  .next (s.finishTest (cpxFlags orZ (s.flag .z) (s.subtract (s.reg ra) (s.reg rb) (s.borrowFrom cin)).flags))

/-- AND (R136). -/
def execAnd (rd ra : Reg) (sf : Bool) (rb : Reg) (s : State) : Result State :=
  .next (s.finishAlu rd sf (logicOut s.aluFlags (s.reg ra &&& s.reg rb)))

/-- ORR (R137). -/
def execOrr (rd ra : Reg) (sf : Bool) (rb : Reg) (s : State) : Result State :=
  .next (s.finishAlu rd sf (logicOut s.aluFlags (s.reg ra ||| s.reg rb)))

/-- EOR (R138). -/
def execEor (rd ra : Reg) (sf : Bool) (rb : Reg) (s : State) : Result State :=
  .next (s.finishAlu rd sf (logicOut s.aluFlags (s.reg ra ^^^ s.reg rb)))

/-- NAND (R139). -/
def execNand (rd ra : Reg) (sf : Bool) (rb : Reg) (s : State) : Result State :=
  .next (s.finishAlu rd sf (logicOut s.aluFlags (~~~(s.reg ra &&& s.reg rb))))

/-- BIC (R140). -/
def execBic (rd ra : Reg) (sf : Bool) (rb : Reg) (s : State) : Result State :=
  .next (s.finishAlu rd sf (logicOut s.aluFlags (s.reg ra &&& ~~~s.reg rb)))

/-- TEQ: the AND test (R141, D2). -/
def execTeq (ra rb : Reg) (s : State) : Result State :=
  .next (s.finishTest (logicOut s.aluFlags (s.reg ra &&& s.reg rb)).flags)

/-- TST: the XOR test (R142, D2). -/
def execTst (ra rb : Reg) (s : State) : Result State :=
  .next (s.finishTest (logicOut s.aluFlags (s.reg ra ^^^ s.reg rb)).flags)

/-- SFT (R143 to R151). -/
def execSft (rd ra : Reg) (sf : Bool) (type : ShiftType) (s : State) : Result State :=
  .next (s.finishAlu rd sf (shiftOut type (s.reg ra) (s.flag .c)))

end Sys2Proof.Machine
end

