-- ==== Sys2Proof/Machine/LoadImmediate.lean ====
section
/-! DEFINITION. The load immediate instructions (spec/46_load_immediate.md R215 to R218). -/

namespace Sys2Proof.Machine

/-- LDIL (R216). -/
def execLdil (rd : Reg) (imm : BitVec 8) (s : State) : Result State := .next (s.setReg rd (immLow imm)).advance

/-- LDIH (R217). -/
def execLdih (rd : Reg) (imm : BitVec 8) (s : State) : Result State :=
  .next (s.setReg rd (withHighByte imm (s.reg rd))).advance

end Sys2Proof.Machine
end

