-- ==== Sys2Proof/Machine/MemoryAccess.lean ====
section
/-! DEFINITION. The memory access instructions (spec/44_memory_access.md R190 to R199). The page of an access comes from
`State.dataPage`, which counts the draw it takes (spec/20_memory.md R55). -/

namespace Sys2Proof.Machine

/-- LDR (R192). Write-back into its own destination is refused (D26). -/
def execLdr (ix : Indexing) (up : Bool) (rd ra : Reg) (off : Offset) (s : State) : Result State :=
  if ix.writesBack && decide (rd = ra) then .refused .ldrWritebackIntoRd
  else
    match s.memRead s.dataPage.1 (s.accessAddress ix up ra off) with
    | .ok v => .next ((s.dataPage.2.setReg rd v).writeBack ix ra (s.effective up ra off)).advance
    | .error f => .fault f

/-- STR (R193): the data register is read before the write-back. -/
def execStr (ix : Indexing) (up : Bool) (rd ra : Reg) (off : Offset) (s : State) : Result State :=
  match s.dataPage.2.memWrite s.iPage s.dataPage.1 (s.accessAddress ix up ra off) (s.reg rd) with
  | .ok t => .next (t.writeBack ix ra (s.effective up ra off)).advance
  | .error r => .refused r

/-- SWP (R197): both accesses use one address and one page. Rd = Rb is refused (D26). -/
def execSwp (rd ra rb : Reg) (s : State) : Result State :=
  if rd = rb then .refused .swpRdIsRb
  else
    match s.memRead s.dataPage.1 (s.reg ra) with
    | .error f => .fault f
    | .ok old =>
      match s.dataPage.2.memWrite s.iPage s.dataPage.1 (s.reg ra) (s.reg rb) with
      | .ok t => .next (t.setReg rd old).advance
      | .error r => .refused r

end Sys2Proof.Machine
end

