-- ==== Sys2Proof/Machine/Misc.lean ====
section
/-! DEFINITION. Multiply, sleep, conditional move and system call (spec/49_misc.md R250 to R260). -/

namespace Sys2Proof.Machine

/-- MUL: the low half of the product, no flags (R250). Refused where there is no multiplier (D6). -/
def execMul (rd ra rb : Reg) (s : State) : Result State :=
  if s.params.mulPresent then .next (s.setReg rd (s.reg ra * s.reg rb)).advance else .refused .multiplierAbsent

/-- SLEEP: the tag has no effect (R251, R252), and a request that is active already wakes the core at once (R253 d). -/
def execSleep (_tag : BitVec 9) (s : State) : Result State :=
  if s.inSystem then .next s.advance.fallAsleep.wakeUp else .next (s.raiseTrap .commandError)

/-- MV (R258). -/
def execMv (rd : Reg) (cond : Cond) (rb : Reg) (s : State) : Result State :=
  if s.cond cond then .next (s.setReg rd (s.reg rb)).advance else .next s.advance

/-- SYSCALL: the tag is kept nowhere (R259, R286). -/
def execSyscall (_tag : BitVec 10) (s : State) : Result State := .next (s.raiseTrap .systemCall)

end Sys2Proof.Machine
end

