-- ==== Sys2Proof/Machine/MsrAccess.lean ====
section
/-! DEFINITION. The MSR access instructions (spec/43_msr_access.md R175 to R180). -/

namespace Sys2Proof.Machine

/-- Whether the mode may transfer an MSR part: user mode its own flags only (R176). -/
def State.msrAllowed (s : State) (part : MsrPart) : Bool := s.inSystem || decide (part = MsrPart.usrFlags)

/-- LDSR (R177). -/
def execLdsr (rd : Reg) (part : MsrPart) (s : State) : Result State :=
  if s.msrAllowed part then .next (s.setReg rd (s.msr &&& partMask part)).advance
  else .next (s.raiseTrap .commandError)

/-- Whether an MSR write leaves system mode while the modes' I-pages differ (R178, D25). -/
def State.leavesAcrossPages (s : State) (newMsr : Word) : Bool :=
  s.inSystem && !newMsr.getLsbD bitM && decide (s.mmu.usrI ≠ s.mmu.sysI)

/-- STSR (R178). -/
def execStsr (part : MsrPart) (rb : Reg) (s : State) : Result State :=
  if s.msrAllowed part then
    let newMsr := mergeBits s.msr (s.reg rb) (partMask part)
    if s.leavesAcrossPages newMsr then .refused .stsrAcrossPages
    else .next { s with msr := newMsr }.advance
  else .next (s.raiseTrap .commandError)

/-- STAF (R179). -/
def execStaf (set : FlagSet) (t n o c z : Bool) (s : State) : Result State :=
  if s.inSystem || decide (set = FlagSet.usr) then
    .next { s with msr := msrWithFlagSet s.msr (flagBase (decide (set = FlagSet.sys))) t n o c z }.advance
  else .next (s.raiseTrap .commandError)

end Sys2Proof.Machine
end

