-- ==== Sys2Proof/Machine/PcAccess.lean ====
section
/-! DEFINITION. The program counter access instructions (spec/42_pc_access.md R165 to R174). -/

namespace Sys2Proof.Machine

/-- LDPC: the instruction's own address (R166). -/
def execLdpc (rd : Reg) (s : State) : Result State := .next (s.setReg rd s.pc).advance

/-- Whether user mode may execute an STPC with these options: L alone (R173). -/
def stpcUnprivileged (mode : StpcMode) (ie : Bool) : Bool := decide (mode = .keep) && !ie

/-- STPC (R167 to R173). -/
def execStpc (mode : StpcMode) (ra : Reg) (link ie : Bool) (s : State) : Result State :=
  if s.inSystem || stpcUnprivileged mode ie then .next (s.transfer ra mode link ie)
  else .next (s.raiseTrap .commandError)

end Sys2Proof.Machine
end

