-- ==== Sys2Proof/Machine/UserBank.lean ====
section
/-! DEFINITION. The user register bank instructions (spec/41_user_bank_access.md R160 to R164). -/

namespace Sys2Proof.Machine

/-- LDUB (R161, R163); the command error trap in user mode (R164). -/
def execLdub (rdSys raUsr : Reg) (sf : Bool) (s : State) : Result State :=
  if s.inSystem then
    let value := s.usr.get raUsr
    let loaded := { s with sys := s.sys.set rdSys value }
    .next (loaded.setAluFlagsIf sf (logicOut s.aluFlags value).flags).advance
  else .next (s.raiseTrap .commandError)

/-- STUB (R162, R163); the command error trap in user mode (R164). -/
def execStub (rdUsr raSys : Reg) (sf : Bool) (s : State) : Result State :=
  if s.inSystem then
    let value := s.sys.get raSys
    let stored := { s with usr := s.usr.set rdUsr value }
    .next (stored.setAluFlagsIf sf (logicOut s.aluFlags value).flags).advance
  else .next (s.raiseTrap .commandError)

end Sys2Proof.Machine
end

