-- ==== Sys2Proof/Machine/Dispatch.lean ====
section
/-! DEFINITION. The meaning of each instruction, one arm per constructor of `Instr`. -/

namespace Sys2Proof.Machine

def exec (i : Instr) (s : State) : Host.Outcome State Fault Refusal :=
  match i with
  | .inc rd ra sf imm => Sys2Proof.Machine.execInc rd ra sf imm s
  | .dec rd ra sf imm => Sys2Proof.Machine.execDec rd ra sf imm s
  | .add rd ra sf rb => Sys2Proof.Machine.execAdd rd ra sf rb s
  | .adc rd ra sf rb => Sys2Proof.Machine.execAdc rd ra sf rb s
  | .sub rd ra sf rb => Sys2Proof.Machine.execSub rd ra sf rb s
  | .neg rd ra sf => Sys2Proof.Machine.execNeg rd ra sf s
  | .sbc rd ra sf rb => Sys2Proof.Machine.execSbc rd ra sf rb s
  | .nec rd ra sf => Sys2Proof.Machine.execNec rd ra sf s
  | .cmp ra rb => Sys2Proof.Machine.execCmp ra rb s
  | .ldsr rd part => Sys2Proof.Machine.execLdsr rd part s
  | .cpx notC orZ ra rb => Sys2Proof.Machine.execCpx notC orZ ra rb s
  | .stsr part rb => Sys2Proof.Machine.execStsr part rb s
  | .staf set t n o c z => Sys2Proof.Machine.execStaf set t n o c z s
  | .and rd ra sf rb => Sys2Proof.Machine.execAnd rd ra sf rb s
  | .stub rdUsr raSys sf => Sys2Proof.Machine.execStub rdUsr raSys sf s
  | .orr rd ra sf rb => Sys2Proof.Machine.execOrr rd ra sf rb s
  | .ldub rdSys raUsr sf => Sys2Proof.Machine.execLdub rdSys raUsr sf s
  | .eor rd ra sf rb => Sys2Proof.Machine.execEor rd ra sf rb s
  | .nand rd ra sf rb => Sys2Proof.Machine.execNand rd ra sf rb s
  | .bic rd ra sf rb => Sys2Proof.Machine.execBic rd ra sf rb s
  | .teq ra rb => Sys2Proof.Machine.execTeq ra rb s
  | .stpc mode ra link ie => Sys2Proof.Machine.execStpc mode ra link ie s
  | .tst ra rb => Sys2Proof.Machine.execTst ra rb s
  | .ldpc rd => Sys2Proof.Machine.execLdpc rd s
  | .sft rd ra sf type => Sys2Proof.Machine.execSft rd ra sf type s
  | .ldr ix up rd ra off => Sys2Proof.Machine.execLdr ix up rd ra off s
  | .str ix up rd ra off => Sys2Proof.Machine.execStr ix up rd ra off s
  | .swp rd ra rb => Sys2Proof.Machine.execSwp rd ra rb s
  | .b cond off => Sys2Proof.Machine.execB cond off s
  | .bl cond off => Sys2Proof.Machine.execBl cond off s
  | .ldil rd imm => Sys2Proof.Machine.execLdil rd imm s
  | .ldih rd imm => Sys2Proof.Machine.execLdih rd imm s
  | .cbr rd ra bit => Sys2Proof.Machine.execCbr rd ra bit s
  | .sbr rd ra bit => Sys2Proof.Machine.execSbr rd ra bit s
  | .ldb rd ra bit => Sys2Proof.Machine.execLdb rd ra bit s
  | .stb ra bit => Sys2Proof.Machine.execStb ra bit s
  | .stbi ra bit => Sys2Proof.Machine.execStbi ra bit s
  | .spr ra => Sys2Proof.Machine.execSpr ra s
  | .spri ra => Sys2Proof.Machine.execSpri ra s
  | .stbr ra ri => Sys2Proof.Machine.execStbr ra ri s
  | .stbri ra ri => Sys2Proof.Machine.execStbri ra ri s
  | .cdp cp ca cb cmd => Sys2Proof.Machine.execCdp cp ca cb cmd s
  | .mrc cp rd ca cmd => Sys2Proof.Machine.execMrc cp rd ca cmd s
  | .mcr cp cd ra cmd => Sys2Proof.Machine.execMcr cp cd ra cmd s
  | .mul rd ra rb => Sys2Proof.Machine.execMul rd ra rb s
  | .sleep tag => Sys2Proof.Machine.execSleep tag s
  | .rba link cond rb => Sys2Proof.Machine.execRba link cond rb s
  | .rbr link cond rb => Sys2Proof.Machine.execRbr link cond rb s
  | .mv rd cond rb => Sys2Proof.Machine.execMv rd cond rb s
  | .syscall tag => Sys2Proof.Machine.execSyscall tag s

end Sys2Proof.Machine
end

