-- ==== Sys2Proof/Machine/Turns.lean ====
section
/-! DEFINITION. What a turn of each agent does (spec/00_scope.md R7): the core executing or sleeping, the core taking an
interrupt (spec/60_exceptions.md R289), another agent; how a turn ends; and who moves next. -/

namespace Sys2Proof.Machine

/-- The entries of the D-page window that the next instruction may still use, one instruction later (R55). -/
def ageWindow (w : List (Word × Nat)) : List (Word × Nat) :=
  (w.filter (fun p => decide (0 < p.2))).map (fun p => (p.1, p.2 - 1))

/-- The state instruction `i` executes in, once it has been fetched: the old I-page is used up, the D-page window is one
instruction older (R55), and the boundary behind `i` is known (R440). -/
def State.beginInstruction (s : State) (i : Instr) : State :=
  { s with mmu := { s.mmu with iOld := none, dOld := ageWindow s.mmu.dOld }, boundary := s.boundaryAfter i }

/-- Whether the I-page of the current mode was written by the instruction before (R55). -/
def State.pageJustWritten (s : State) : Bool := s.mmu.iOld.isSome

/-- An answer with the clock cycle that an instruction takes (R342). -/
def withClock (r : Result State) : Result State :=
  match r with
  | .next t => .next t.clockCycle
  | .fault f => .fault f
  | .refused q => .refused q

/-- The core executes the decoded instruction `i`; behind a write of the current I-page only a taken control transfer
may stand (R55, D15). -/
def State.execute (s : State) (i : Instr) : Result State :=
  if s.pageJustWritten && !s.transfersControl i then .refused .iPageWithoutTransfer
  else withClock (exec i (s.beginInstruction i))

/-- One turn of the core: asleep it lets a clock cycle pass (R252, R342), awake it executes the instruction at the program
counter. -/
def State.coreTurn (s : State) : Result State :=
  if s.sleeping then .next s.clockCycle
  else
    match s.current with
    | .fault f => .fault f
    | .refused r => .refused r
    | .next i => s.execute i

/-- The core takes the interrupt whose condition holds, if one does and the boundary allows it (R289, R440); not behind a
write of the current I-page (R55, D15). Asleep it lets a clock cycle pass. -/
def State.interruptTurn (s : State) : Result State :=
  if s.sleeping then .next s.clockCycle
  else
    match s.interruptPending with
    | none => .next s
    | some t =>
      if !s.boundaryOpen then .next s
      else if s.pageJustWritten then .refused .iPageWithoutTransfer
      else .next (s.takeInterrupt t)

/-- Whether the spec leaves open who moves next: an interrupt may be taken (R289), the timer runs (R342), or a device has
work in progress (R448). -/
def State.turnOpen (s : State) : Bool :=
  (!s.sleeping && s.interruptPending.isSome && s.boundaryOpen) || decide (s.timer.thr ≠ 0#16) || s.uart.txBusy
    || s.spi.busy || s.wb.busy

/-- Who moves next, with the state that remembers it: the script says it; without one the core moves, or where the spec
leaves it open any agent (notes/assumptions/8.md, 9.md). -/
def State.nextTurn (s : State) : Turn × State :=
  match s.script with
  | t :: ts => (t, { s with script := ts })
  | [] => if s.turnOpen then (Config.freeTurn s.draws, s.drawn) else (.core, s)

/-- The end of a turn that led from `s` to `t`: a sleeping core whose request is active wakes at once (R253 d), and the
output pins that changed stand in the host's record (R425). -/
def State.endTurn (s t : State) : State := s.showPins (t.whenClocked t.wakeUp)

/-- An answer of a turn that began in `s`, with what the end of the turn adds. -/
def withEnd (s : State) (r : Result State) : Result State :=
  match r with
  | .next t => .next (s.endTurn t)
  | .fault f => .fault f
  | .refused q => .refused q

/-- What a turn does. A core that CE_I halts makes no step (R63). -/
def takeTurn (t : Turn) (s : State) : Result State :=
  match t with
  | .core => if s.clocked then withEnd s s.coreTurn else .next s
  | .interrupt => if s.clocked then withEnd s s.interruptTurn else .next s
  | .agent e => .next (s.endTurn (agentAct e s))

end Sys2Proof.Machine
end

