-- ==== Sys2Proof/Machine/Launch.lean ====
section
/-! DEFINITION. How a program comes into the machine (spec/20_memory.md R71, spec/70_reset_and_hazards.md R424): the
host gives the boot ROM its contents, or the image launch that stands for the bootloader. -/

namespace Sys2Proof.Machine

/-- A memory with a list of words written from byte address `k` up: word n of an image lies at byte address 2n (R71).
DESIGN CHOICE: R71 gives an image no bound, and one longer than page 0, or than the memory, goes on at the next byte
addresses (notes/assumptions/37.md). -/
def Memory.loadWords (m : Memory) (k : Nat) : List Word → Memory
  | [] => m
  | w :: ws => (m.writeWord k w).loadWords (k + 2) ws

/-- The reset launch (R424 a): the host supplies the boot ROM. -/
def State.withRom (s : State) (words : List Word) : State := { s with rom := s.rom.loadWords 0 words }

/-- What the image launch leaves open (R424 b): the free choices of the launch. -/
structure LaunchDraws where
  /-- MSR.S. -/
  previousMode : Bool
  /-- Both flag sets, MSR bits 9:0. -/
  flags : BitVec 10
  /-- The mmu_sys_info toggle. -/
  infoSel : Bool
  /-- com_ctrl, its two busy flags among it. -/
  comCtrl : Word
  /-- uart_prsc. -/
  uartPrsc : Word
  /-- spi_cs. -/
  spiCs : Byte
  /-- sys_io[15:8]. -/
  sysOut : Byte
  deriving DecidableEq, Repr

/-- The MSR at image launch: M = 1, GX, X0, X1 and CP 0, the rest drawn (R424 b). -/
def launchMsr (d : LaunchDraws) : Word := 1#1 ++ BitVec.ofBool d.previousMode ++ 0#4 ++ d.flags

/-- The image launch (R424 b): the image in RAM page 0 from address 0, execution at its first word. com_ctrl reads as any
value, so a transmission or an exchange that the bootloader started may still be in progress. -/
def State.launch (p : Params) (d : LaunchDraws) (image : List Word) : State :=
  { State.resetWith p with
    pc := 0
    msr := launchMsr d
    mmu := { State.reset.mmu with sysI := 0, sysD := 0, irqBase := unstatedWord, infoSel := d.infoSel }
    comCtrl := d.comCtrl &&& comCtrlMask
    uart := { State.reset.uart with prsc := d.uartPrsc, txBusy := d.comCtrl.getLsbD bitUartBusy }
    spi := { State.reset.spi with cs := d.spiCs, busy := d.comCtrl.getLsbD bitSpiBusy }
    pio := { State.reset.pio with sysOut := d.sysOut }
    ram := Memory.loadWords [] 0 image }

end Sys2Proof.Machine
end

