-- ==== Sys2Proof/Safety.lean ====
section
/-! DEFINITION. The terms the claims use: what an instruction leaves unchanged, what trap entry is
(spec/60_exceptions.md R290), the invariant of every step, and what user mode can see and touch (R296, R297). -/

namespace Sys2Proof.Machine

/-! ## Reserved words -/

/-- The bits of `w` under `mask` equal `value`. -/
def bitsAre (w mask value : Word) : Bool := decide (w &&& mask = value)

/-- The reserved words, row by row of the table of R105, and the two operand combinations named after it. -/
def reservedByTable (w : Word) : Bool :=
  ((bitsAre w 0xFC08 0x1808 || bitsAre w 0xFC08 0x3408 || bitsAre w 0xFC08 0x3808) && !bitsAre w 0x0380 0)
    || (bitsAre w 0xFC08 0x1C08 && bitsAre w 0x0080 0x0080)
    || (bitsAre w 0xFC08 0x1800 && (bitsAre w 0x0010 0x0010 || !bitsAre w 0x0007 0))
    || (bitsAre w 0xFC18 0x1C00 && !bitsAre w 0x0380 0)
    || (bitsAre w 0xFC18 0x1C10 && (bitsAre w 0x0200 0x0200 || bitsAre w 0x0040 0))
    || (bitsAre w 0xFC08 0x3800 && (!bitsAre w 0x0070 0 || !bitsAre w 0x0007 0))
    || (bitsAre w 0xFC08 0x3400 && (!bitsAre w 0x0300 0 || bitsAre w 0x0081 0x0081))
    || (bitsAre w 0xE800 0x6000 && !bitsAre w 0x1408 0)
    || (bitsAre w 0xFC00 0xDC00 && (bitsAre w 0x0300 0x0300 || (bitsAre w 0x0300 0x0100 && !bitsAre w 0x000F 0)
        || (bitsAre w 0x0300 0x0200 && bitsAre w 0x0008 0x0008)))
    || (bitsAre w 0xF808 0xE008)
    || (bitsAre w 0xFC08 0xF008)
    || (bitsAre w 0xCC00 0x4800 && decide ((w >>> 7) &&& 7 = (w >>> 4) &&& 7))
    || (bitsAre w 0xFC08 0x6000 && decide ((w >>> 7) &&& 7 = w &&& 7))

/-! ## Frames -/

/-- Register `r` of a bank given by name: `true` is the system bank (R10). -/
def State.bankReg (s : State) (system : Bool) (r : Reg) : Word := if system then s.sys.get r else s.usr.get r

/-- Every register of the devices, the pins and their samples, the interrupt boundary, the host's record, the script and
the parameters are as before. -/
structure SameDevices (s t : State) : Prop where
  irq : t.irq = s.irq
  timer : t.timer = s.timer
  lfsr : t.lfsr = s.lfsr
  comCtrl : t.comCtrl = s.comCtrl
  uart : t.uart = s.uart
  spi : t.spi = s.spi
  pio : t.pio = s.pio
  wb : t.wb = s.wb
  pins : t.pins = s.pins
  seen : t.seen = s.seen
  boundary : t.boundary = s.boundary
  record : t.record = s.record
  script : t.script = s.script
  params : t.params = s.params

/-- Every byte of memory reads as before. -/
structure SameMemory (s t : State) : Prop where
  ram : ∀ a, t.ram.read a = s.ram.read a
  rom : ∀ a, t.rom.read a = s.rom.read a

/-- Every general register outside `written` and every MSR bit outside `bits` is as before, in both banks. -/
structure SameRegisters (s t : State) (written : List (Bool × Reg)) (bits : List Nat) : Prop where
  regs : ∀ b r, (b, r) ∉ written → t.bankReg b r = s.bankReg b r
  msr : ∀ i, i ∉ bits → t.msr.getLsbD i = s.msr.getLsbD i

/-- The frame of an instruction that writes the named registers and MSR bits and stores nothing. -/
structure Frame (s t : State) (written : List (Bool × Reg)) (bits : List Nat) : Prop where
  registers : SameRegisters s t written bits
  mmu : t.mmu = s.mmu
  sleeping : t.sleeping = s.sleeping
  devices : SameDevices s t
  memory : SameMemory s t

/-- The MSR bits of the four arithmetic flags of the current set (R17). -/
def State.aluBits (s : State) : List Nat :=
  [flagBase s.inSystem, flagBase s.inSystem + 1, flagBase s.inSystem + 2, flagBase s.inSystem + 3]

/-- The MSR bit of the current T flag (R17). -/
def State.tBit (s : State) : Nat := flagBase s.inSystem + 4

/-! ## The shapes of the register instructions -/

/-- An instruction that writes `r` to Rd, the flags `f` when S is set, and nothing else (R120). -/
structure AluStep (s t : State) (rd : Reg) (sf : Bool) (r : Word) (f : AluFlags) : Prop where
  result : t.reg rd = r
  flags : sf = true → t.aluFlags = f
  pc : t.pc = s.pc + 2
  frame : Frame s t [(s.inSystem, rd)] (if sf then s.aluBits else [])

/-- An instruction that writes the flags `f` and nothing else (R120). -/
structure TestStep (s t : State) (f : AluFlags) : Prop where
  flags : t.aluFlags = f
  pc : t.pc = s.pc + 2
  frame : Frame s t [] s.aluBits

/-- An instruction that writes `r` to Rd and nothing else. -/
structure MoveStep (s t : State) (rd : Reg) (r : Word) : Prop where
  result : t.reg rd = r
  pc : t.pc = s.pc + 2
  frame : Frame s t [(s.inSystem, rd)] []

/-- An instruction that writes the T flag of the current set and nothing else (R220). -/
structure TStep (s t : State) (v : Bool) : Prop where
  flag : t.flag .t = v
  pc : t.pc = s.pc + 2
  frame : Frame s t [] [s.tBit]

/-- Z, C, O, N of the exact sum of R122. -/
def sumFlags (a b : Word) (cin : Bool) : AluFlags :=
  let sum := a.toNat + b.toNat + cin.toNat
  let ssum := a.toInt + b.toInt + (cin.toNat : Int)
  { z := decide (sum % 2 ^ 16 = 0)
    c := decide (2 ^ 16 ≤ sum)
    o := decide (ssum < -32768 ∨ 32767 < ssum)
    n := decide (2 ^ 15 ≤ sum % 2 ^ 16) }

/-- The borrow that a carry input means under SUB_CARRY (R123). -/
def borrowOf (sense : SubCarry) (cin : Bool) : Bool := if sense = .borrow then cin else !cin

/-- Z, C, O, N of the exact difference of R123. -/
def diffFlags (sense : SubCarry) (a b : Word) (bin : Bool) : AluFlags :=
  let diff : Int := (a.toNat : Int) - b.toNat - (bin.toNat : Int)
  let sdiff : Int := a.toInt - b.toInt - (bin.toNat : Int)
  { z := decide (diff % 2 ^ 16 = 0)
    c := if sense = .borrow then decide (diff < 0) else decide (0 ≤ diff)
    o := decide (sdiff < -32768 ∨ 32767 < sdiff)
    n := decide (2 ^ 15 ≤ diff % 2 ^ 16) }

/-- Z and N of a result, C and O as they were (R124). -/
def keptFlags (s : State) (r : Word) : AluFlags :=
  { z := decide (r = 0#16), c := s.flag .c, o := s.flag .o, n := r.getLsbD 15 }

/-- The result of each shift type as an operation on the whole word, `c` the old carry (R144 to R151). -/
def shiftedWord (type : ShiftType) (a : Word) (c : Bool) : Word :=
  match type with
  | .swp => (a <<< 8) ||| (a >>> 8)
  | .asr => a.sshiftRight 1
  | .rol => a.rotateLeft 1
  | .ror => a.rotateRight 1
  | .lsl => a <<< 1
  | .lsr => a >>> 1
  | .rlc => (a <<< 1) ||| (if c then 0x0001 else 0)
  | .rrc => (a >>> 1) ||| (if c then 0x8000 else 0)

/-- The bit that each shift type moves out (R144 to R151). -/
def shiftedOut (type : ShiftType) (a : Word) : Bool :=
  if type = .asr ∨ type = .ror ∨ type = .lsr ∨ type = .rrc then a.getLsbD 0 else a.getLsbD 15

/-- The bytes of RAM after a store of the word `v` at byte address `addr` through `page`: the two bytes of the word that
contains the address, exchanged when the address is odd (R54, R58, R61). -/
def StoredAt (s t : State) (page addr v : Word) : Prop :=
  let k := ramAddress s.params page addr
  ∀ a, t.ram.read a =
    if a = k then some (if addr.getLsbD 0 then highByte v else lowByte v)
    else if a = k + 1 then some (if addr.getLsbD 0 then lowByte v else highByte v)
    else s.ram.read a

/-- The frame of an instruction that stores one word and writes the named registers. -/
structure StoreFrame (s t : State) (written : List (Bool × Reg)) (page addr v : Word) : Prop where
  registers : SameRegisters s t written []
  mmu : t.mmu = s.mmu
  sleeping : t.sleeping = s.sleeping
  devices : SameDevices s t
  ram : StoredAt s t page addr v
  rom : ∀ a, t.rom.read a = s.rom.read a

/-! ## Trap entry -/

/-- `t` is `s` after trap entry at `vector` with the link value `link` (R290). -/
structure TrapEntered (s t : State) (vector link : Word) : Prop where
  pc : t.pc = vector
  link : t.sys.get .r7 = link
  sysBank : ∀ r, r ≠ .r7 → t.sys.get r = s.sys.get r
  usrBank : t.usr = s.usr
  mode : t.msr.getLsbD 15 = true
  previous : t.msr.getLsbD 14 = s.msr.getLsbD 15
  interrupts : t.msr.getLsbD 11 = false
  msr : ∀ i, i ≠ 15 → i ≠ 14 → i ≠ 11 → t.msr.getLsbD i = s.msr.getLsbD i
  iLink : t.mmu.iLink = if s.msr.getLsbD 15 then s.mmu.sysI else s.mmu.usrI
  dLink : t.mmu.dLink = if s.msr.getLsbD 15 then s.mmu.sysD else s.mmu.usrD
  sysI : t.mmu.sysI = s.mmu.irqBase
  sysD : t.mmu.sysD = s.mmu.irqBase
  irqBase : t.mmu.irqBase = s.mmu.irqBase
  usrI : t.mmu.usrI = s.mmu.usrI
  usrD : t.mmu.usrD = s.mmu.usrD
  infoSel : t.mmu.infoSel = s.mmu.infoSel
  noWindow : t.mmu.iOld = none ∧ t.mmu.dOld = []
  running : t.sleeping = false
  devices : SameDevices s t
  memory : SameMemory s t

/-- What user mode may not execute (R285, R297): the instructions that raise the command error trap, besides the
coprocessor instructions, whose check also reads MSR.CP (R239). -/
def systemOnly : Instr → Bool
  | .ldub .. | .stub .. | .sleep .. => true
  | .ldsr _ part => decide (part ≠ .usrFlags)
  | .stsr part _ => decide (part ≠ .usrFlags)
  | .staf set .. => decide (set ≠ .usr)
  | .stpc mode _ _ ie => decide (mode ≠ .keep) || ie
  | .cdp cp .. => decide (cp = .cp1)
  | .mrc cp .. => decide (cp = .cp1)
  | .mcr cp .. => decide (cp = .cp1)
  | .inc .. | .dec .. | .add .. | .adc .. | .sub .. | .neg .. | .sbc .. | .nec .. | .cmp .. | .cpx .. | .and ..
  | .orr .. | .eor .. | .nand .. | .bic .. | .teq .. | .tst .. | .ldpc .. | .sft .. | .ldr .. | .str .. | .swp ..
  | .b .. | .bl .. | .ldil .. | .ldih .. | .cbr .. | .sbr .. | .ldb .. | .stb .. | .stbi .. | .spr .. | .spri ..
  | .stbr .. | .stbri .. | .mul .. | .rba .. | .rbr .. | .mv .. | .syscall .. => false

/-- The coprocessor instructions on coprocessor #0 (R239). -/
def usesCp0 : Instr → Bool
  | .cdp cp .. => decide (cp = .cp0)
  | .mrc cp .. => decide (cp = .cp0)
  | .mcr cp .. => decide (cp = .cp0)
  | .inc .. | .dec .. | .add .. | .adc .. | .sub .. | .neg .. | .sbc .. | .nec .. | .cmp .. | .ldsr .. | .cpx ..
  | .stsr .. | .staf .. | .and .. | .stub .. | .orr .. | .ldub .. | .eor .. | .nand .. | .bic .. | .teq .. | .stpc ..
  | .tst .. | .ldpc .. | .sft .. | .ldr .. | .str .. | .swp .. | .b .. | .bl .. | .ldil .. | .ldih .. | .cbr ..
  | .sbr .. | .ldb .. | .stb .. | .stbi .. | .spr .. | .spri .. | .stbr .. | .stbri .. | .mul .. | .sleep .. | .rba ..
  | .rbr .. | .mv .. | .syscall .. => false

/-! ## The invariant -/

/-- What every step keeps, from any state that has it. -/
structure State.Inv (s : State) : Prop where
  /-- The memories keep their canonical form. -/
  ramSorted : s.ram.wf = true
  romSorted : s.rom.wf = true
  /-- A page has at least one word, and nothing lies outside the RAM (R54). -/
  pageSize : 1 ≤ s.params.pageSizeLog2
  ramInside : s.ram.below (ramSize s.params) = true
  /-- "Bit #0 of the program counter will always be zero" (R14). -/
  pcEven : s.pc.getLsbD 0 = false
  /-- The read-only and unlisted bits of com_ctrl are not stored (R331). -/
  comCtrlBits : s.comCtrl &&& ~~~comCtrlMask = 0#16
  /-- A FIFO holds at most WB_FIFO_DEPTH words (R401). -/
  txFits : s.wb.tx.length ≤ s.params.wbFifoDepth
  rxFits : s.wb.rx.length ≤ s.params.wbFifoDepth
  /-- A write transfer in progress has its words in the TX FIFO (R408). -/
  txHeld : s.wb.busy = true → s.wb.dir = true → s.wb.left ≤ s.wb.tx.length
  /-- Only system mode sleeps (R252). -/
  sleepsInSystem : s.sleeping = true → s.inSystem = true
  /-- A core sleeps only while no enabled request is active (R253 d), or its clock is halted (R63). -/
  sleepsQuietly : s.sleeping = true → s.clocked = true → s.wakes = false
  /-- While the clock runs, the previous samples are the levels of the pins (R29, R390). -/
  sampled : s.clocked = true → s.seen = { pioIn := s.pins.pioIn, irq0 := s.pins.irq0, irq1 := s.pins.irq1 }
  /-- Only system mode has a write of its own I-page in flight (R55, R297). -/
  pageWriteInSystem : s.mmu.iOld.isSome = true → s.inSystem = true
  /-- The D-page window is at most two instructions long (R55). -/
  windowLength : ∀ p ∈ s.mmu.dOld, p.2 ≤ 2

/-! ## The timer over time -/

/-- `k` clock cycles of a timer, and how many times it pulsed channel 0 (R341, R343). -/
def timerRun : Nat → Timer → Timer × Nat
  | 0, t => (t, 0)
  | k + 1, t =>
    let (u, n) := timerRun k t
    let (v, p) := u.cycle
    (v, n + p.toNat)

/-- The interrupt controller after a trigger of channel `ch`: pending when its mask bit is set, lost when not (R334). -/
structure Triggered (p q : IrqCtl) (ch : Nat) : Prop where
  mask : q.mask = p.mask
  conf : q.conf = p.conf
  pend : ∀ j, q.pend.getLsbD j = (p.pend.getLsbD j || (decide (j = ch) && p.mask.getLsbD ch))

/-- The interrupt controller after the line of channel `ch` went from the level `before` to the level `after`: a trigger
where `after` is the configured level, in edge mode only if the level changed; otherwise nothing (R333, R334). -/
def LineMoved (p q : IrqCtl) (ch : Nat) (before after : Bool) : Prop :=
  if after = p.conf.getLsbD (8 + ch) ∧ (p.conf.getLsbD ch = true ∨ before ≠ after) then Triggered p q ch else q = p

/-! ## The interrupt lines of the core -/

/-- Whether an interrupt line of the core requests and its mask bit is set, X0 or X1 (R252, R283, R284). -/
def State.line0 (s : State) : Bool := s.msr.getLsbD 12 && s.params.bareProcessor && s.pins.critical
def State.line1 (s : State) : Bool := s.msr.getLsbD 13 && decide (s.irq.pend ≠ 0)

/-! ## The Wishbone bus -/

/-- The host acknowledges one word access after another (R408). -/
def acknowledge (s : State) : List Word → State
  | [] => s
  | w :: ws => acknowledge (s.wishboneReply (.ack w)) ws

/-- The bus address of word `i` of a burst (R403). -/
def burstAddress (w : Wishbone) (i : Nat) : Nat :=
  (((w.baseH.toNat * 2 ^ 16 + w.baseL.toNat : Nat) : Int) + i * w.offs.toInt) % 2 ^ 32 |>.toNat

/-! ## User mode -/

/-- Two states that user mode cannot tell apart: both in user mode, with the same user bank, user flags, program
counter, user pages, memories, coprocessor protection, parameters and free choices (R297). -/
structure SameForUser (a b : State) : Prop where
  modeA : a.inSystem = false
  modeB : b.inSystem = false
  pc : a.pc = b.pc
  usr : a.usr = b.usr
  flags : a.msr.extractLsb' 0 5 = b.msr.extractLsb' 0 5
  protection : a.msr.getLsbD 10 = b.msr.getLsbD 10
  usrI : a.mmu.usrI = b.mmu.usrI
  usrD : a.mmu.usrD = b.mmu.usrD
  ram : a.ram = b.ram
  rom : a.rom = b.rom
  params : a.params = b.params
  draws : a.draws = b.draws

/-- Everything that user mode must not change is as before: the system bank, MSR bits 15:5, the MMU, the devices of
coprocessor #1, the run state (R297). -/
structure SystemUntouched (s t : State) : Prop where
  sys : t.sys = s.sys
  msr : ∀ i, 5 ≤ i → t.msr.getLsbD i = s.msr.getLsbD i
  mmu : t.mmu = s.mmu
  irq : t.irq = s.irq
  timer : t.timer = s.timer
  lfsr : t.lfsr = s.lfsr
  comCtrl : t.comCtrl = s.comCtrl
  uart : t.uart = s.uart
  spi : t.spi = s.spi
  pio : t.pio = s.pio
  wb : t.wb = s.wb
  pins : t.pins = s.pins
  seen : t.seen = s.seen
  boundary : t.boundary = s.boundary
  rom : t.rom = s.rom
  sleeping : t.sleeping = s.sleeping

end Sys2Proof.Machine
end

