-- ==== Sys2Proof/Certificates/Slice0/Obligations.lean ====
section
/-! DEFINITION. The statements for the provers. Each docstring names the rules of spec/ it rests on; every statement holds
for every state that meets its hypotheses, reached by a run or not. -/

open Sys2Proof Sys2Proof.Machine

/-! ## Encoding -/

/-- Decoding the word that the encoder writes for a well-formed instruction gives the instruction back, with every
operand at every value (R82 to R94). -/
def Obligations.DecodeEncode : Prop := ∀ i : Instr, i.WellFormed = true → decode (encode i) = .ok i

/-- A word has at most one instruction, and that instruction has at most one word: an accepted word is the word of the
instruction it decodes to, which meets the conditions of its row (R94). -/
def Obligations.EncodeDecode : Prop := ∀ (w : Word) (i : Instr), decode w = .ok i → encode i = w ∧ i.WellFormed = true

/-- The decoder refuses exactly the words of R105: the rows of its table and the two operand combinations after it. -/
def Obligations.ReservedWordsRefused : Prop :=
  ∀ w : Word, (∃ r, decode w = .error r) ↔ reservedByTable w = true

/-- A few words written out from the spec's encodings, one of each format, decode to the instructions they stand for. -/
def Obligations.SpecWordsDecode : Prop :=
  decode 0x0012 = .ok (.inc .r0 .r1 false 2) ∧ decode 0x111C = .ok (.sub .r2 .r1 true .r4)
    ∧ decode 0x1D3C = .ok (.cpx false true .r3 .r4) ∧ decode 0x18E0 = .ok (.ldsr .r1 .usrFlags)
    ∧ decode 0x2444 = .ok (.ldub .r0 .r4 false) ∧ decode 0x3473 = .ok (.stpc .user .r7 false true)
    ∧ decode 0x4E5A = .ok (.str .preWriteback false .r4 .r5 (.imm 2)) ∧ decode 0x6134 = .ok (.swp .r2 .r3 .r4)
    ∧ decode 0xBE01 = .ok (.bl .al 1) ∧ decode 0xC67F = .ok (.ldil .r4 255) ∧ decode 0xDB85 = .ok (.ldb .r7 .r0 5)
    ∧ decode 0xE7B1 = .ok (.cdp .cp1 7 3 1) ∧ decode 0xEFB8 = .ok (.mcr .cp1 7 .r3 0) ∧ decode 0xF77C = .ok (.rba false .al .r4)
    ∧ decode 0xFA07 = .ok (.mv .r4 .eq .r7) ∧ decode 0xFFEA = .ok (.syscall 1002)

/-! ## Fetch and step -/

/-- Where the script gives the core its turn, or is empty with nothing open, and the clock runs, a core that is awake
executes the decoded instruction at the program counter: `exec` in the state with the page windows one instruction older
and the boundary behind the instruction known, then one clock cycle, then what every turn ends with (TurnEnd). The one
exception is an instruction behind a write of the current I-page (R55), which must be a taken transfer. That the turns are
scripted and that an instruction takes one clock cycle is the model's choice (notes/assumptions/8.md). -/
def Obligations.StepRunsDecoded : Prop :=
  ∀ (s u : State) (w : Word) (i : Instr),
    ((∃ rest, s.script = .core :: rest ∧ u = { s with script := rest }) ∨ (s.script = [] ∧ s.turnOpen = false ∧ u = s)) →
    s.clocked = true → s.sleeping = false → s.fetch = .ok w → decode w = .ok i →
    (s.mmu.iOld = none ∨ s.transfersControl i = true) →
    step s = withEnd u (withClock (exec i (u.beginInstruction i)))

/-- How a turn that led from one state to another ends: the pins PIO_OUT_O, SYS_OUT_O and SPI_CS_O that show another level
than before are appended to the host's record in this order; nothing else happens to a core that is awake, that has no
enabled request, or whose clock stands (R253, R384, R391, R392, R425). The record is the model's (notes/assumptions/16.md). -/
def Obligations.TurnEnd : Prop :=
  ∀ (s t : State) (cs : State → Byte),
    (∀ v : State, cs v = if v.comCtrl.getLsbD 4 = true ∧ v.spi.busy = false then 0xFF else ~~~v.spi.cs) →
    t.clocked = false ∨ t.sleeping = false ∨ (t.line0 = false ∧ t.line1 = false) →
    s.endTurn t = { t with
      record := t.record ++ (if t.pio.out = s.pio.out then [] else [.pioOut t.pio.out])
        ++ (if t.pio.sysOut = s.pio.sysOut then [] else [.sysOut t.pio.sysOut])
        ++ (if cs t = cs s then [] else [.spiCs (cs t)]) }

/-- A turn of the core stops where the fetch has no word or the word is reserved (R59, R105), and where an instruction
that is not a taken transfer stands behind a write of the current I-page (R55). -/
def Obligations.StepStops : Prop :=
  ∀ (s : State) (rest : List Turn), s.script = .core :: rest → s.clocked = true → s.sleeping = false →
    (∀ f, s.fetch = .error f → step s = .fault f)
      ∧ (∀ w r, s.fetch = .ok w → decode w = .error r → step s = .refused (.reservedWord r))
      ∧ ∀ w i, s.fetch = .ok w → decode w = .ok i → s.mmu.iOld.isSome = true → s.transfersControl i = false →
          step s = .refused .iPageWithoutTransfer

/-- An instruction word placed where the next fetch reads it is the instruction that the next step executes, as `exec`, one
clock cycle and the end of the turn (R59, R94). That placing a word stands for the host's load of a program, that the turn
is the core's where the script is empty and nothing is open, and that it takes one clock cycle are the model's choices
(notes/assumptions/5.md, 9.md, 8.md). -/
def Obligations.PlacedWordRuns : Prop :=
  ∀ (s u : State) (i : Instr), i.WellFormed = true → s.script = [] → u = s.withFetchWord 16 (encode i).toNat →
    u.turnOpen = false → s.clocked = true → s.sleeping = false → s.mmu.iOld = none →
    step u = withEnd u (withClock (exec i (u.beginInstruction i)))

/-! ## Data processing -/

/-- INC, ADD and ADC: the sum modulo 2^16 in Rd; with S the flags of the exact sum; nothing else changes (R120 to R122,
R126, R128, R129). -/
def Obligations.Additions : Prop :=
  ∀ (s : State) (rd ra rb : Reg) (sf : Bool) (imm : BitVec 3),
    (∃ t, exec (.inc rd ra sf imm) s = .next t
      ∧ AluStep s t rd sf (s.reg ra + imm.zeroExtend 16) (sumFlags (s.reg ra) (imm.zeroExtend 16) false))
    ∧ (∃ t, exec (.add rd ra sf rb) s = .next t
      ∧ AluStep s t rd sf (s.reg ra + s.reg rb) (sumFlags (s.reg ra) (s.reg rb) false))
    ∧ ∃ t, exec (.adc rd ra sf rb) s = .next t
      ∧ AluStep s t rd sf (s.reg ra + s.reg rb + (if s.flag .c then 1 else 0))
          (sumFlags (s.reg ra) (s.reg rb) (s.flag .c))

/-- DEC, SUB and NEG: the difference modulo 2^16 in Rd; with S the flags of the exact difference under either sense of
SUB_CARRY; nothing else changes (R121, R123, R127, R130, R131). -/
def Obligations.Subtractions : Prop :=
  ∀ (s : State) (rd ra rb : Reg) (sf : Bool) (imm : BitVec 3),
    (∃ t, exec (.dec rd ra sf imm) s = .next t
      ∧ AluStep s t rd sf (s.reg ra - imm.zeroExtend 16)
          (diffFlags s.params.subCarry (s.reg ra) (imm.zeroExtend 16) false))
    ∧ (∃ t, exec (.sub rd ra sf rb) s = .next t
      ∧ AluStep s t rd sf (s.reg ra - s.reg rb) (diffFlags s.params.subCarry (s.reg ra) (s.reg rb) false))
    ∧ ∃ t, exec (.neg rd ra sf) s = .next t
      ∧ AluStep s t rd sf (0 - s.reg ra) (diffFlags s.params.subCarry 0 (s.reg ra) false)

/-- SBC and NEC take the borrow that the old carry stands for under SUB_CARRY (R123, R132, R133). -/
def Obligations.SubtractionsWithCarry : Prop :=
  ∀ (s : State) (rd ra rb : Reg) (sf : Bool) (bin : Bool), bin = borrowOf s.params.subCarry (s.flag .c) →
    (∃ t, exec (.sbc rd ra sf rb) s = .next t
      ∧ AluStep s t rd sf (s.reg ra - s.reg rb - (if bin then 1 else 0))
          (diffFlags s.params.subCarry (s.reg ra) (s.reg rb) bin))
    ∧ ∃ t, exec (.nec rd ra sf) s = .next t
      ∧ AluStep s t rd sf (0 - s.reg ra - (if bin then 1 else 0)) (diffFlags s.params.subCarry 0 (s.reg ra) bin)

/-- CMP and CPX write the flags of the difference and no register; CPX joins the old Z by AND or by OR and takes the
carry or its inverse. TEQ sets Z and N from the AND of its operands, TST from their exclusive OR; C, O and every register
are kept (R121, R123, R124, R134, R135, R141, R142). -/
def Obligations.Compares : Prop :=
  ∀ (s : State) (ra rb : Reg),
    (∃ t, exec (.cmp ra rb) s = .next t ∧ TestStep s t (diffFlags s.params.subCarry (s.reg ra) (s.reg rb) false))
    ∧ (∀ (notC orZ : Bool) (f : AluFlags),
      f = diffFlags s.params.subCarry (s.reg ra) (s.reg rb)
        (borrowOf s.params.subCarry (if notC then !s.flag .c else s.flag .c)) →
      ∃ t, exec (.cpx notC orZ ra rb) s = .next t
        ∧ TestStep s t { f with z := if orZ then s.flag .z || f.z else s.flag .z && f.z })
    ∧ (∃ t, exec (.teq ra rb) s = .next t ∧ TestStep s t (keptFlags s (s.reg ra &&& s.reg rb)))
    ∧ ∃ t, exec (.tst ra rb) s = .next t ∧ TestStep s t (keptFlags s (s.reg ra ^^^ s.reg rb))

/-- AND, ORR, EOR, NAND and BIC: the bitwise result in Rd; with S, Z and N of the result, C and O kept (R121, R124, R136
to R140). -/
def Obligations.LogicalResults : Prop :=
  ∀ (s : State) (rd ra rb : Reg) (sf : Bool),
    (∃ t, exec (.and rd ra sf rb) s = .next t
      ∧ AluStep s t rd sf (s.reg ra &&& s.reg rb) (keptFlags s (s.reg ra &&& s.reg rb)))
    ∧ (∃ t, exec (.orr rd ra sf rb) s = .next t
      ∧ AluStep s t rd sf (s.reg ra ||| s.reg rb) (keptFlags s (s.reg ra ||| s.reg rb)))
    ∧ (∃ t, exec (.eor rd ra sf rb) s = .next t
      ∧ AluStep s t rd sf (s.reg ra ^^^ s.reg rb) (keptFlags s (s.reg ra ^^^ s.reg rb)))
    ∧ (∃ t, exec (.nand rd ra sf rb) s = .next t
      ∧ AluStep s t rd sf (~~~(s.reg ra &&& s.reg rb)) (keptFlags s (~~~(s.reg ra &&& s.reg rb))))
    ∧ ∃ t, exec (.bic rd ra sf rb) s = .next t
      ∧ AluStep s t rd sf (s.reg ra &&& ~~~s.reg rb) (keptFlags s (s.reg ra &&& ~~~s.reg rb))

/-- SFT: each type as an operation on the whole word, C the bit shifted out, O the change of the sign bit (R125, R143 to
R151). -/
def Obligations.Shifts : Prop :=
  ∀ (s : State) (rd ra : Reg) (sf : Bool) (type : ShiftType) (r : Word), r = shiftedWord type (s.reg ra) (s.flag .c) →
    ∃ t, exec (.sft rd ra sf type) s = .next t
      ∧ AluStep s t rd sf r
          { z := decide (r = 0#16)
            c := shiftedOut type (s.reg ra)
            o := (s.reg ra).getLsbD 15 != r.getLsbD 15
            n := r.getLsbD 15 }

/-- ADDS of the low words and then ADCS of the high words add two 32-bit numbers, with the carry of the whole sum in C,
provided that the first result does not overwrite an operand of the second. CMP of the low words and then CPX of the high
words compare two 32-bit numbers: Z is their equality, C is their unsigned order in the sense of SUB_CARRY, and N against O
is their signed order (R122, R128, R129, R134, R135). -/
def Obligations.DoubleWordArithmetic : Prop :=
  (∀ (s t u : State) (rdL raL rbL rdH raH rbH : Reg) (sf : Bool), rdL ≠ raH → rdL ≠ rbH → rdL ≠ rdH →
    exec (.add rdL raL true rbL) s = .next t → exec (.adc rdH raH sf rbH) t = .next u →
    u.reg rdH ++ u.reg rdL = (s.reg raH ++ s.reg raL) + (s.reg rbH ++ s.reg rbL)
      ∧ (sf = true →
          u.flag .c = decide (2 ^ 32 ≤ (s.reg raH ++ s.reg raL).toNat + (s.reg rbH ++ s.reg rbL).toNat)))
  ∧ ∀ (s t u : State) (aL bL aH bH : Reg), exec (.cmp aL bL) s = .next t → exec (.cpx false false aH bH) t = .next u →
    u.flag .z = decide (s.reg aH ++ s.reg aL = s.reg bH ++ s.reg bL)
      ∧ u.flag .c
          = (if s.params.subCarry = .borrow then (s.reg aH ++ s.reg aL).ult (s.reg bH ++ s.reg bL)
            else !(s.reg aH ++ s.reg aL).ult (s.reg bH ++ s.reg bL))
      ∧ (u.flag .n != u.flag .o) = (s.reg aH ++ s.reg aL).slt (s.reg bH ++ s.reg bL)

/-- What each condition means after CMP Ra, Rb, under both senses of SUB_CARRY: the table of R210. -/
def Obligations.ConditionsAfterCompare : Prop :=
  ∀ (s t : State) (ra rb : Reg) (a b : Word), a = s.reg ra → b = s.reg rb → exec (.cmp ra rb) s = .next t →
    t.cond .eq = decide (a = b) ∧ t.cond .ne = decide (a ≠ b)
      ∧ t.cond .mi = (a - b).getLsbD 15 ∧ t.cond .pl = !(a - b).getLsbD 15
      ∧ t.cond .os = decide (a.toInt - b.toInt < -32768 ∨ 32767 < a.toInt - b.toInt)
      ∧ t.cond .oc = decide (-32768 ≤ a.toInt - b.toInt ∧ a.toInt - b.toInt ≤ 32767)
      ∧ t.cond .ge = decide (b.toInt ≤ a.toInt) ∧ t.cond .lt = decide (a.toInt < b.toInt)
      ∧ t.cond .gt = decide (b.toInt < a.toInt) ∧ t.cond .le = decide (a.toInt ≤ b.toInt)
      ∧ (s.params.subCarry = .borrow →
          t.cond .cs = a.ult b ∧ t.cond .cc = b.ule a ∧ t.cond .hi = a.ult b ∧ t.cond .ls = b.ule a)
      ∧ (s.params.subCarry = .notBorrow →
          t.cond .cs = b.ule a ∧ t.cond .cc = a.ult b ∧ t.cond .hi = b.ult a ∧ t.cond .ls = a.ule b)

/-! ## User bank, program counter, MSR -/

/-- LDUB and STUB in system mode: one register of each bank is copied; with S, Z and N of the value in the system flags,
C and O kept; nothing else changes (R161 to R163). -/
def Obligations.UserBankTransfers : Prop :=
  ∀ (s : State) (rd ra : Reg) (sf : Bool), s.inSystem = true →
    (∃ t, exec (.ldub rd ra sf) s = .next t ∧ t.sys.get rd = s.usr.get ra
      ∧ (sf = true → t.aluFlags = keptFlags s (s.usr.get ra)) ∧ t.pc = s.pc + 2
      ∧ Frame s t [(true, rd)] (if sf then [5, 6, 7, 8] else []))
    ∧ ∃ t, exec (.stub rd ra sf) s = .next t ∧ t.usr.get rd = s.sys.get ra
      ∧ (sf = true → t.aluFlags = keptFlags s (s.sys.get ra)) ∧ t.pc = s.pc + 2
      ∧ Frame s t [(false, rd)] (if sf then [5, 6, 7, 8] else [])

/-- LDPC gives the address of the LDPC instruction itself, in either mode (R166). -/
def Obligations.LoadPc : Prop :=
  ∀ (s : State) (rd : Reg), ∃ t, exec (.ldpc rd) s = .next t ∧ MoveStep s t rd s.pc

/-- STPC, where the mode allows its options: the pc takes the old Ra with bit 0 forced to zero; L puts the address of the
next instruction into R7 of the old bank; I sets GX; U clears M; X copies S to M; nothing else changes (R14, R167 to
R171, R173). -/
def Obligations.StorePc : Prop :=
  ∀ (s : State) (mode : StpcMode) (ra : Reg) (link ie : Bool),
    s.inSystem = true ∨ (mode = .keep ∧ ie = false) →
    ∃ t, exec (.stpc mode ra link ie) s = .next t
      ∧ (∀ i, t.pc.getLsbD i = if i = 0 then false else (s.reg ra).getLsbD i)
      ∧ (link = true → t.bankReg s.inSystem .r7 = s.pc + 2)
      ∧ t.msr.getLsbD 11 = (ie || s.msr.getLsbD 11)
      ∧ t.msr.getLsbD 15 = (if mode = .user then false else if mode = .exchange then s.msr.getLsbD 14
          else s.msr.getLsbD 15)
      ∧ Frame s t (if link then [(s.inSystem, .r7)] else []) [11, 15]

/-- LDSR, where the mode allows the part: Rd takes the bits of the MSR that the part names, the others read 0 (R176,
R177). -/
def Obligations.LoadMsr : Prop :=
  ∀ (s : State) (rd : Reg) (part : MsrPart), s.inSystem = true ∨ part = .usrFlags →
    ∃ t r, exec (.ldsr rd part) s = .next t ∧ MoveStep s t rd r
      ∧ ∀ i, r.getLsbD i = (s.msr.getLsbD i && match part with
        | .all => true
        | .aluFlags => decide (i < 10)
        | .sysFlags => decide (5 ≤ i ∧ i < 10)
        | .usrFlags => decide (i < 5))

/-- STSR, where the mode allows the part and it does not leave system mode across different I-pages: the named bits of
the MSR take those of Rb, and nothing else changes; where it does, it is refused (R176, R178). -/
def Obligations.StoreMsr : Prop :=
  ∀ (s : State) (part : MsrPart) (rb : Reg), s.inSystem = true ∨ part = .usrFlags →
    (¬(part = .all ∧ (s.reg rb).getLsbD 15 = false ∧ s.mmu.usrI ≠ s.mmu.sysI) →
      ∃ t, exec (.stsr part rb) s = .next t
        ∧ (∀ i, t.msr.getLsbD i = if (match part with
              | .all => true
              | .aluFlags => decide (i < 10)
              | .sysFlags => decide (5 ≤ i ∧ i < 10)
              | .usrFlags => decide (i < 5)) then (s.reg rb).getLsbD i else s.msr.getLsbD i)
        ∧ t.pc = s.pc + 2 ∧ Frame s t [] (List.range 16))
      ∧ (part = .all → (s.reg rb).getLsbD 15 = false → s.mmu.usrI ≠ s.mmu.sysI →
          exec (.stsr part rb) s = .refused .stsrAcrossPages)

/-- STAF, where the mode allows the set: the five flags of the named set take the immediate, whichever mode is current,
and nothing else changes (R179). -/
def Obligations.StoreFlagsImmediate : Prop :=
  ∀ (s : State) (set : FlagSet) (z c o n t : Bool) (base : Nat), s.inSystem = true ∨ set = .usr →
    base = (if set = .usr then 0 else 5) →
    ∃ u, exec (.staf set t n o c z) s = .next u
      ∧ u.msr.getLsbD base = z ∧ u.msr.getLsbD (base + 1) = c ∧ u.msr.getLsbD (base + 2) = o
      ∧ u.msr.getLsbD (base + 3) = n ∧ u.msr.getLsbD (base + 4) = t ∧ u.pc = s.pc + 2
      ∧ Frame s u [] [base, base + 1, base + 2, base + 3, base + 4]

/-! ## Memory access -/

/-- The memory a program sees. A data access goes to the data page of the mode and a fetch to its instruction page, where
no page write is in flight. Every page with bit 15 set shows the same boot ROM, at the even address. In the base setup a
page with bit 15 clear reaches the RAM word that the low bits of page and address name, those of NUM_PAGES and PAGE_SIZE;
on the bare processor the word at the physical address. An access has a value exactly where both bytes of its word have
one, the low byte at the even address, which is the model's reading of R58 (notes/assumptions/6.md). That no two words of a
ROM page are one, and that fetch and data of the bare processor share one memory, are its choices (notes/assumptions/36.md,
34.md; R51 to R54, R59). -/
def Obligations.MemoryMap : Prop :=
  ∀ (s : State) (page a w : Word) (k : Nat) (m : Memory),
    (s.inSystem = false → s.dataPage = (s.mmu.usrD, s) ∧ (s.mmu.iOld = none → s.fetchPage = s.mmu.usrI))
    ∧ (s.inSystem = true → (s.mmu.dOld = [] → s.dataPage = (s.mmu.sysD, s))
        ∧ (s.mmu.iOld = none → s.fetchPage = s.mmu.sysI))
    ∧ s.fetch = s.wordAt s.fetchPage s.pc
    ∧ (k = (if page.getLsbD 15 = true then 2 * (a.toNat / 2)
          else if s.params.bareProcessor = true then page.toNat * 2 ^ 16 + 2 * (a.toNat / 2)
          else (page.toNat % 2 ^ s.params.numPagesLog2) * 2 ^ s.params.pageSizeLog2
            + 2 * (a.toNat % 2 ^ s.params.pageSizeLog2 / 2)) →
        m = (if page.getLsbD 15 = true then s.rom else s.ram) →
        (s.wordAt page a = .ok w ↔ m.read k = some (w.extractLsb' 0 8) ∧ m.read (k + 1) = some (w.extractLsb' 8 8))
        ∧ ((∃ f, s.wordAt page a = .error f) ↔ m.read k = none ∨ m.read (k + 1) = none))

/-- LDR with a readable word, and not with write-back into its own destination: the address is base or base plus or
minus offset; Rd takes the word that contains it, its bytes exchanged at an odd address; with write-back Ra takes base
plus or minus offset; nothing else changes, no byte of memory among it (R60, R191, R192). -/
def Obligations.LoadRegister : Prop :=
  ∀ (s : State) (ix : Indexing) (up : Bool) (rd ra : Reg) (off : Offset) (o eff addr w : Word),
    o = (match off with | .imm n => n.zeroExtend 16 | .reg r => s.reg r) →
    eff = (if up then s.reg ra + o else s.reg ra - o) →
    addr = (if ix = .postWriteback then s.reg ra else eff) →
    (ix = .pre ∨ rd ≠ ra) → s.wordAt s.dataPage.1 addr = .ok w →
    ∃ t, exec (.ldr ix up rd ra off) s = .next t
      ∧ t.reg rd = (if addr.getLsbD 0 then w.rotateLeft 8 else w)
      ∧ (ix ≠ .pre → t.reg ra = eff) ∧ t.pc = s.pc + 2
      ∧ Frame s t ((s.inSystem, rd) :: if ix = .pre then [] else [(s.inSystem, ra)]) []

/-- STR outside the boot ROM and not to the two instruction words behind it: the word of RAM that contains the address
takes Rd as it was before, its bytes exchanged at an odd address, and every other byte of memory is kept; with write-back
Ra takes base plus or minus offset; nothing else changes (R61, R191, R193). -/
def Obligations.StoreRegister : Prop :=
  ∀ (s : State) (ix : Indexing) (up : Bool) (rd ra : Reg) (off : Offset) (page addr : Word),
    page = s.dataPage.1 → addr = s.accessAddress ix up ra off → inRom page = false →
    s.hitsFetched s.iPage page addr = false →
    ∃ t, exec (.str ix up rd ra off) s = .next t ∧ t.pc = s.pc + 2
      ∧ (ix ≠ .pre → t.reg ra = s.effective up ra off)
      ∧ StoreFrame s t (if ix = .pre then [] else [(s.inSystem, ra)]) page addr (s.reg rd)

/-- SWP with Rd other than Rb, a readable word, outside the boot ROM and not on the two instruction words behind it: Rd
takes the word of memory, the word of memory takes the old Rb, both with bytes exchanged at an odd address; nothing else
changes (R60, R61, R197). -/
def Obligations.SwapMemory : Prop :=
  ∀ (s : State) (rd ra rb : Reg) (page w : Word), rd ≠ rb → page = s.dataPage.1 → inRom page = false →
    s.hitsFetched s.iPage page (s.reg ra) = false → s.wordAt page (s.reg ra) = .ok w →
    ∃ t, exec (.swp rd ra rb) s = .next t
      ∧ t.reg rd = (if (s.reg ra).getLsbD 0 then w.rotateLeft 8 else w) ∧ t.pc = s.pc + 2
      ∧ StoreFrame s t [(s.inSystem, rd)] page (s.reg ra) (s.reg rb)

/-- Where the memory instructions stop. LDR with write-back into its own destination and SWP with Rd = Rb are refused
(R192, R197); STR and SWP are refused on the boot ROM (R61) and on one of the two instruction words behind them (R68);
LDR in every form, and SWP, of a word without a value fault: for RAM that nothing has written that is the model's choice
after R32 (notes/assumptions/4.md), for the boot ROM number 52 of 93_implementation_defined.md (notes/assumptions/5.md). -/
def Obligations.MemoryStops : Prop :=
  ∀ (s : State) (ix : Indexing) (up : Bool) (rd ra rb : Reg) (off : Offset) (page addr : Word),
    page = s.dataPage.1 → addr = s.accessAddress ix up ra off →
    (ix ≠ .pre → exec (.ldr ix up ra ra off) s = .refused .ldrWritebackIntoRd)
      ∧ exec (.swp rd ra rd) s = .refused .swpRdIsRb
      ∧ (inRom page = true → exec (.str ix up rd ra off) s = .refused .romWrite)
      ∧ (inRom page = false → s.hitsFetched s.iPage page addr = true →
          exec (.str ix up rd ra off) s = .refused .storeToFetchedWord)
      ∧ (∀ f, ix = .pre ∨ rd ≠ ra → s.wordAt page addr = .error f → exec (.ldr ix up rd ra off) s = .fault f)
      ∧ (∀ f, rd ≠ rb → s.wordAt page (s.reg ra) = .error f → exec (.swp rd ra rb) s = .fault f)
      ∧ (∀ w, rd ≠ rb → s.wordAt page (s.reg ra) = .ok w → inRom page = true →
          exec (.swp rd ra rb) s = .refused .romWrite)
      ∧ ∀ w, rd ≠ rb → s.wordAt page (s.reg ra) = .ok w → inRom page = false →
          s.hitsFetched s.iPage page (s.reg ra) = true → exec (.swp rd ra rb) s = .refused .storeToFetchedWord

/-- A load whose address reaches the word that STR or SWP stored just before returns the stored value, its bytes exchanged
where exactly one of the two addresses is odd: LDR in every form it has, through any base register, and SWP where its own
store is allowed (R60, R61, R65). -/
def Obligations.LoadAfterStore : Prop :=
  ∀ (s t : State) (store : Instr) (addr v b r : Word), s.mmu.dOld = [] →
    ((∃ ix up rd ra off, store = .str ix up rd ra off ∧ addr = s.accessAddress ix up ra off ∧ v = s.reg rd)
      ∨ ∃ rd ra rb, store = .swp rd ra rb ∧ addr = s.reg ra ∧ v = s.reg rb) →
    exec store s = .next t → ramAddress s.params s.dPage b = ramAddress s.params s.dPage addr →
    r = (if b.getLsbD 0 = addr.getLsbD 0 then v else v.rotateLeft 8) →
    (∀ ix up rq rb off, b = t.accessAddress ix up rb off → ix = .pre ∨ rq ≠ rb →
      ∃ u, exec (.ldr ix up rq rb off) t = .next u ∧ u.reg rq = r)
    ∧ ∀ rq rb rc, b = t.reg rb → rq ≠ rc → t.hitsFetched t.iPage t.dataPage.1 b = false →
      ∃ u, exec (.swp rq rb rc) t = .next u ∧ u.reg rq = r

/-! ## Branches and conditional move -/

/-- B and BL: taken exactly when the condition holds on the current flags, to the branch's own address plus twice the
signed offset; BL writes R7 only when taken; nothing else changes (R92, R205 to R209). -/
def Obligations.RelativeBranches : Prop :=
  ∀ (s : State) (cond : Cond) (off : BitVec 9) (target : Word), target = BitVec.ofInt 16 (s.pc.toNat + 2 * off.toInt) →
    (∃ t, exec (.b cond off) s = .next t ∧ t.pc = (if s.cond cond then target else s.pc + 2) ∧ Frame s t [] [])
    ∧ ∃ t, exec (.bl cond off) s = .next t ∧ t.pc = (if s.cond cond then target else s.pc + 2)
      ∧ (s.cond cond = true → t.reg .r7 = s.pc + 2)
      ∧ Frame s t (if s.cond cond then [(s.inSystem, .r7)] else []) []

/-- RBA and RBR: taken exactly when the condition holds, to the old Rb or to the instruction's own address plus the old
Rb, bit 0 dropped; with L, R7 takes the address of the next instruction when taken; nothing else changes (R254 to R256). -/
def Obligations.RegisterBranches : Prop :=
  ∀ (s : State) (link : Bool) (cond : Cond) (rb : Reg),
    (∃ t, exec (.rba link cond rb) s = .next t
      ∧ (s.cond cond = true → ∀ i, t.pc.getLsbD i = (decide (i ≠ 0) && (s.reg rb).getLsbD i))
      ∧ (s.cond cond = false → t.pc = s.pc + 2)
      ∧ (s.cond cond = true → link = true → t.reg .r7 = s.pc + 2)
      ∧ Frame s t (if s.cond cond && link then [(s.inSystem, .r7)] else []) [])
    ∧ ∃ t, exec (.rbr link cond rb) s = .next t
      ∧ (s.cond cond = true → ∀ i, t.pc.getLsbD i = (decide (i ≠ 0) && (s.pc + s.reg rb).getLsbD i))
      ∧ (s.cond cond = false → t.pc = s.pc + 2)
      ∧ (s.cond cond = true → link = true → t.reg .r7 = s.pc + 2)
      ∧ Frame s t (if s.cond cond && link then [(s.inSystem, .r7)] else []) []

/-- The condition codes on the flags of the current mode: the table of R206. -/
def Obligations.ConditionTable : Prop :=
  ∀ (s : State) (z c o n t : Bool), z = s.msr.getLsbD (if s.msr.getLsbD 15 then 5 else 0) →
    c = s.msr.getLsbD (if s.msr.getLsbD 15 then 6 else 1) → o = s.msr.getLsbD (if s.msr.getLsbD 15 then 7 else 2) →
    n = s.msr.getLsbD (if s.msr.getLsbD 15 then 8 else 3) → t = s.msr.getLsbD (if s.msr.getLsbD 15 then 9 else 4) →
    s.cond .eq = z ∧ s.cond .ne = !z ∧ s.cond .cs = c ∧ s.cond .cc = !c ∧ s.cond .mi = n ∧ s.cond .pl = !n
      ∧ s.cond .os = o ∧ s.cond .oc = !o ∧ s.cond .hi = (c && !z) ∧ s.cond .ls = (!c || z)
      ∧ s.cond .ge = decide (n = o) ∧ s.cond .lt = decide (n ≠ o) ∧ s.cond .gt = (!z && decide (n = o))
      ∧ s.cond .le = (z || decide (n ≠ o)) ∧ s.cond .ts = t ∧ s.cond .al = true

/-- MV copies Rb to Rd exactly when the condition holds, and changes nothing else either way (R258). -/
def Obligations.ConditionalMove : Prop :=
  ∀ (s : State) (rd rb : Reg) (cond : Cond),
    ∃ t, exec (.mv rd cond rb) s = .next t ∧ t.reg rd = (if s.cond cond then s.reg rb else s.reg rd)
      ∧ t.pc = s.pc + 2 ∧ Frame s t [(s.inSystem, rd)] []

/-! ## Immediates, bits, multiply -/

/-- LDIL sign-extends its immediate into Rd; LDIH replaces the high byte of Rd and keeps the low byte; nothing else
changes (R216, R217). -/
def Obligations.LoadImmediates : Prop :=
  ∀ (s : State) (rd : Reg) (imm : BitVec 8),
    (∃ t r, exec (.ldil rd imm) s = .next t ∧ MoveStep s t rd r ∧ r.toInt = imm.toInt)
    ∧ ∃ t r, exec (.ldih rd imm) s = .next t ∧ MoveStep s t rd r
      ∧ r.toNat = imm.toNat * 256 + (s.reg rd).toNat % 256

/-- CBR, SBR and LDB give one bit of a copy of Ra the value 0, 1 or T and put it into Rd; nothing else changes, T
included (R221 to R223). -/
def Obligations.BitWrites : Prop :=
  ∀ (s : State) (rd ra : Reg) (bit : BitVec 4),
    (∃ t r, exec (.cbr rd ra bit) s = .next t ∧ MoveStep s t rd r
      ∧ ∀ i, i < 16 → r.getLsbD i = if i = bit.toNat then false else (s.reg ra).getLsbD i)
    ∧ (∃ t r, exec (.sbr rd ra bit) s = .next t ∧ MoveStep s t rd r
      ∧ ∀ i, i < 16 → r.getLsbD i = if i = bit.toNat then true else (s.reg ra).getLsbD i)
    ∧ ∃ t r, exec (.ldb rd ra bit) s = .next t ∧ MoveStep s t rd r
      ∧ ∀ i, i < 16 → r.getLsbD i = if i = bit.toNat then s.flag .t else (s.reg ra).getLsbD i

/-- STB, STBI, STBR and STBRI put one bit of Ra, or its inverse, into T; the index register counts modulo 16. SPR puts 1
into T exactly when the number of 1 bits of Ra is odd, SPRI exactly when it is even. Nothing else changes (R224 to R229). -/
def Obligations.BitTests : Prop :=
  ∀ (s : State) (ra ri : Reg) (bit : BitVec 4) (ones : Nat),
    ones = ((List.range 16).filter fun i => (s.reg ra).getLsbD i).length →
    (∃ t, exec (.stb ra bit) s = .next t ∧ TStep s t ((s.reg ra).getLsbD bit.toNat))
    ∧ (∃ t, exec (.stbi ra bit) s = .next t ∧ TStep s t (!(s.reg ra).getLsbD bit.toNat))
    ∧ (∃ t, exec (.stbr ra ri) s = .next t ∧ TStep s t ((s.reg ra).getLsbD ((s.reg ri).toNat % 16)))
    ∧ (∃ t, exec (.stbri ra ri) s = .next t ∧ TStep s t (!(s.reg ra).getLsbD ((s.reg ri).toNat % 16)))
    ∧ (∃ t, exec (.spr ra) s = .next t ∧ TStep s t (decide (ones % 2 = 1)))
    ∧ ∃ t, exec (.spri ra) s = .next t ∧ TStep s t (decide (ones % 2 = 0))

/-- MUL, where the multiplier is present: Rd takes the low 16 bits of the product, the same for signed and unsigned
operands, and nothing else changes, no flag among it; without the multiplier it is refused (R250). -/
def Obligations.Multiply : Prop :=
  ∀ (s : State) (rd ra rb : Reg),
    (s.params.mulPresent = true → ∃ t r, exec (.mul rd ra rb) s = .next t ∧ MoveStep s t rd r
      ∧ r.toNat = (s.reg ra).toNat * (s.reg rb).toNat % 2 ^ 16
      ∧ r = BitVec.ofInt 16 ((s.reg ra).toInt * (s.reg rb).toInt))
    ∧ (s.params.mulPresent = false → exec (.mul rd ra rb) s = .refused .multiplierAbsent)

/-! ## Coprocessors -/

/-- Coprocessor #0, where the mode may use it (R239). With nothing attached MRC reads 0 and MCR and CDP have no effect;
with logic attached the transaction goes to the host's record with the command bits of R238, MRC writes Rd (with what the
host answers), and nothing else of the machine changes (R240 to R243). The record is the model's (notes/assumptions/16.md); it
holds CP_RW_O and CP_DAT_O only where R238 gives them a meaning (notes/assumptions/30.md). -/
def Obligations.ExternalCoprocessor : Prop :=
  ∀ (s : State) (rd ra : Reg) (ca cb cmd : BitVec 3), s.inSystem = true ∨ s.msr.getLsbD 10 = false →
    (s.params.cp0Present = false →
      (∃ t, exec (.mrc .cp0 rd ca cmd) s = .next t ∧ MoveStep s t rd 0)
      ∧ (∃ t, exec (.mcr .cp0 ca ra cmd) s = .next t ∧ t.pc = s.pc + 2 ∧ Frame s t [] [])
      ∧ ∃ t, exec (.cdp .cp0 ca cb cmd) s = .next t ∧ t.pc = s.pc + 2 ∧ Frame s t [] [])
    ∧ (s.params.cp0Present = true →
      (∃ t, exec (.mrc .cp0 rd ca cmd) s = .next t ∧ t.pc = s.pc + 2
        ∧ Frame { s with record := s.record ++ [.coprocessorRead (rd.toBits ++ (ca ++ cmd))] } t
            [(s.inSystem, rd)] [])
      ∧ (∃ t, exec (.mcr .cp0 ca ra cmd) s = .next t ∧ t.pc = s.pc + 2
        ∧ Frame { s with record := s.record ++ [.coprocessorWrite (ca ++ (ra.toBits ++ cmd)) (s.reg ra)] } t [] [])
      ∧ ∃ t, exec (.cdp .cp0 ca cb cmd) s = .next t ∧ t.pc = s.pc + 2
        ∧ Frame { s with record := s.record ++ [.coprocessorCommand (ca ++ (cb ++ cmd))] } t [] [])

/-- MRC in system mode from the registers of the system coprocessor that a read does not change: Rd takes the register,
an unlisted register reads 0, and nothing else changes (R331). -/
def Obligations.SysRegisterReads : Prop :=
  ∀ (s : State) (rd : Reg) (m r : BitVec 3) (v : Word), s.inSystem = true →
    ((m, r, v) ∈
        [(0#3, 1#3, s.irq.conf), (0#3, 2#3, s.timer.cnt), (0#3, 3#3, s.timer.thr), (0#3, 4#3, s.timer.prsc),
         (0#3, 6#3, s.lfsr.poly), (1#3, 0#3, s.mmu.irqBase), (1#3, 1#3, s.mmu.sysI), (1#3, 2#3, s.mmu.sysD),
         (1#3, 3#3, s.mmu.usrI), (1#3, 4#3, s.mmu.usrD), (1#3, 5#3, s.mmu.iLink), (1#3, 6#3, s.mmu.dLink),
         (2#3, 1#3, s.uart.prsc), (2#3, 4#3, 0#8 ++ s.spi.cs), (2#3, 5#3, s.pins.pioIn), (2#3, 6#3, s.pio.out),
         (2#3, 7#3, s.pio.sysOut ++ s.pins.sysIn), (3#3, 1#3, s.wb.baseL), (3#3, 2#3, s.wb.baseH),
         (3#3, 3#3, s.wb.offs), (3#3, 5#3, s.wb.timeout)]
      ∨ (v = 0 ∧ ((m = 0 ∧ r = 7) ∨ (m = 3 ∧ 6 ≤ r) ∨ 4 ≤ m))
      ∨ (m = 2 ∧ r = 2 ∧ ∀ i, v.getLsbD i
          = if i = 3 then s.spi.busy else if i = 5 then s.uart.txBusy else s.comCtrl.getLsbD i)) →
    ∃ t, exec (.mrc .cp1 rd m r) s = .next t ∧ MoveStep s t rd v

/-- MRC from irq_sm in system mode: the mask, and the pending channel with the smallest number, which the read
acknowledges; every other pending bit stays. With nothing pending the read only writes Rd, and bits 7:3 read 0 (R331,
R335, R336). -/
def Obligations.InterruptAcknowledge : Prop :=
  ∀ (s : State) (rd : Reg), s.inSystem = true →
    (∀ ch : Nat, ch < 8 → s.irq.pend.getLsbD ch = true → (∀ j, j < ch → s.irq.pend.getLsbD j = false) →
      ∃ t, exec (.mrc .cp1 rd 0 0) s = .next t ∧ t.reg rd = s.irq.mask ++ BitVec.ofNat 8 ch
        ∧ t.irq.mask = s.irq.mask ∧ t.irq.conf = s.irq.conf
        ∧ (∀ j, t.irq.pend.getLsbD j = (decide (j ≠ ch) && s.irq.pend.getLsbD j))
        ∧ t.pc = s.pc + 2 ∧ Frame { s with irq := t.irq } t [(true, rd)] [])
    ∧ (s.irq.pend = 0 →
      ∃ t v, exec (.mrc .cp1 rd 0 0) s = .next t ∧ MoveStep s t rd v
        ∧ v.extractLsb' 8 8 = s.irq.mask ∧ v.extractLsb' 3 5 = 0)

/-- MRC in system mode from the registers that a read changes: lfsr_data (in read mode the value before the step, and one
step of LFSR_NEXT; free-running the value after an open number of steps; in either mode lfsr_poly stays), mmu_sys_info (the
high and the low half of CLK_SPEED in turn), uart_rtx_sd (clears the data-ready flag), spi_data (while busy an open value),
ctrl (clears the three flags, and channel 1 sees what that does to its line), rtx_fifo (removes the oldest word, outside a
read transfer and not after an abort). Nothing else changes (R351, R367, R374, R383, R405, R407, R410). -/
def Obligations.DeviceReads : Prop :=
  ∀ (s : State) (rd : Reg), s.inSystem = true →
    (∃ t, exec (.mrc .cp1 rd 0 5) s = .next t
      ∧ (s.lfsr.poly.getLsbD 15 = false → t.reg rd = s.lfsr.data
          ∧ t.lfsr.data = Config.lfsrNext s.lfsr.data (s.lfsr.poly.extractLsb' 0 15))
      ∧ (s.lfsr.poly.getLsbD 15 = true → t.reg rd = t.lfsr.data ∧ ∃ k, t.lfsr = s.lfsr.steps k)
      ∧ t.lfsr.poly = s.lfsr.poly ∧ t.pc = s.pc + 2 ∧ Frame { s with lfsr := t.lfsr } t [(true, rd)] [])
    ∧ (∃ t, exec (.mrc .cp1 rd 1 7) s = .next t
      ∧ (∀ i, i < 16 → (t.reg rd).getLsbD i = s.params.clkSpeed.getLsbD (if s.mmu.infoSel then i else i + 16))
      ∧ t.pc = s.pc + 2 ∧ Frame { s with mmu := { s.mmu with infoSel := !s.mmu.infoSel } } t [(true, rd)] [])
    ∧ (∃ t, exec (.mrc .cp1 rd 2 0) s = .next t
      ∧ t.reg rd = BitVec.ofBool s.uart.rxReady ++ 0#7 ++ s.uart.rxData
      ∧ t.pc = s.pc + 2 ∧ Frame { s with uart := { s.uart with rxReady := false } } t [(true, rd)] [])
    ∧ (∃ t v, exec (.mrc .cp1 rd 2 3) s = .next t ∧ MoveStep s t rd v ∧ (s.spi.busy = false → v = s.spi.data))
    ∧ (∃ t, exec (.mrc .cp1 rd 3 0) s = .next t
      ∧ t.reg rd = s.wb.burst ++ BitVec.ofBool s.wb.dir ++ BitVec.ofBool s.wb.busy ++ BitVec.ofBool s.wb.enTo
          ++ BitVec.ofBool s.wb.enErr ++ BitVec.ofBool s.wb.enDone ++ BitVec.ofBool s.wb.fTo ++ BitVec.ofBool s.wb.fErr
          ++ BitVec.ofBool s.wb.fDone
      ∧ LineMoved s.irq t.irq 1 s.wb.line false ∧ t.pc = s.pc + 2
      ∧ Frame { s with wb := { s.wb with fDone := false, fErr := false, fTo := false }, irq := t.irq } t [(true, rd)] [])
    ∧ (s.wb.busy = false ∨ s.wb.dir = true → s.wb.aborted = false →
      (∀ w ws, s.wb.rx = w :: ws → ∃ t, exec (.mrc .cp1 rd 3 4) s = .next t ∧ t.reg rd = w ∧ t.pc = s.pc + 2
        ∧ Frame { s with wb := { s.wb with rx := ws } } t [(true, rd)] [])
      ∧ (s.wb.rx = [] → ∃ t v, exec (.mrc .cp1 rd 3 4) s = .next t ∧ MoveStep s t rd v))

/-- MCR in system mode to the registers of c0 to c2 that take the value with no condition: the register takes Ra, the
writable part of it where it has read-only bits; a write of timer_thr or timer_prsc also clears the counter and the
pre-counter; a write to a read-only or unlisted register has no effect, to one of c3 while no transfer is in progress; a
write of lfsr_poly while the LFSR runs free leaves its data open. Nothing else changes (R331, R333, R337, R341, R350, R361,
R362, R364, R372, R391, R392, R402). What iOld and dOld hold after c1#1 and c1#2 is how the model keeps the windows of R55
(notes/assumptions/12.md, 11.md). -/
def Obligations.SysRegisterWrites : Prop :=
  ∀ (s : State) (ra : Reg) (v : Word), s.inSystem = true → v = s.reg ra →
    (∀ (m r : BitVec 3) (u : State),
      ((m, r, u) ∈
          [(0#3, 0#3, { s with irq := { s.irq with mask := v.extractLsb' 8 8 } }),
           (0#3, 1#3, { s with irq := { s.irq with conf := v } }),
           (0#3, 2#3, { s with timer := { s.timer with cnt := v } }),
           (0#3, 3#3, { s with timer := { s.timer with thr := v, cnt := 0, pre := 0 } }),
           (0#3, 4#3, { s with timer := { s.timer with prsc := v, cnt := 0, pre := 0 } }),
           (0#3, 5#3, { s with lfsr := { s.lfsr with data := v } }),
           (1#3, 0#3, { s with mmu := { s.mmu with irqBase := v } }),
           (1#3, 1#3, { s with mmu := { s.mmu with sysI := v, iOld := some s.mmu.sysI } }),
           (1#3, 2#3, { s with mmu := { s.mmu with sysD := v, dOld := (s.mmu.sysD, 2) :: s.mmu.dOld } }),
           (1#3, 3#3, { s with mmu := { s.mmu with usrI := v } }),
           (1#3, 4#3, { s with mmu := { s.mmu with usrD := v } }),
           (2#3, 1#3, { s with uart := { s.uart with prsc := v } }),
           (2#3, 6#3, { s with pio := { s.pio with out := v } }),
           (2#3, 7#3, { s with pio := { s.pio with sysOut := v.extractLsb' 8 8 } }),
           (0#3, 7#3, s), (1#3, 5#3, s), (1#3, 6#3, s), (1#3, 7#3, s), (2#3, 5#3, s)]
        ∨ (4 ≤ m ∧ u = s) ∨ (m = 3 ∧ 6 ≤ r ∧ s.wb.busy = false ∧ u = s)) →
      ∃ t, exec (.mcr .cp1 m ra r) s = .next t ∧ t.pc = s.pc + 2 ∧ Frame u t [] [])
    ∧ ∃ t, exec (.mcr .cp1 0 ra 6) s = .next t ∧ t.lfsr.poly = v
      ∧ (s.lfsr.poly.getLsbD 15 = false → t.lfsr.data = s.lfsr.data)
      ∧ t.pc = s.pc + 2 ∧ Frame { s with lfsr := t.lfsr } t [] []

/-- Writes to the devices in system mode, each where the device takes it: com_ctrl and spi_cs while the SPI is idle; a
byte to the activated, idle UART and a word to the idle SPI, which start a transmission and go to the host's record; the
Wishbone registers, the TX FIFO and the two transfer commands while no transfer is in progress; after a write of ctrl
channel 1 sees what that does to its line. Nothing else changes (R331, R373, R383, R384, R402 to R406, R408 to R410). -/
def Obligations.DeviceWrites : Prop :=
  ∀ (s : State) (ra : Reg) (v : Word), s.inSystem = true → v = s.reg ra →
    (s.spi.busy = false → ∀ (r : BitVec 3) (u : State),
      (r, u) ∈ [(2#3, { s with comCtrl := v &&& 0xFF57 }),
        (3#3, { s with spi := { s.spi with data := v, busy := true },
                       record := s.record ++ [.spiExchange v s.spi.cs s.comCtrl] }),
        (4#3, { s with spi := { s.spi with cs := v.extractLsb' 0 8 } })] →
      ∃ t, exec (.mcr .cp1 2 ra r) s = .next t ∧ t.pc = s.pc + 2 ∧ Frame u t [] [])
    ∧ (s.comCtrl.getLsbD 6 = true → s.uart.txBusy = false → ∃ t, exec (.mcr .cp1 2 ra 0) s = .next t ∧ t.pc = s.pc + 2
      ∧ Frame { s with uart := { s.uart with txShift := v.extractLsb' 0 8, txBusy := true },
                       record := s.record ++ [.uartByte (v.extractLsb' 0 8)] } t [] [])
    ∧ (s.wb.busy = false →
      (∀ (r : BitVec 3) (w : Wishbone),
        (r, w) ∈ [(1#3, { s.wb with baseL := v }), (2#3, { s.wb with baseH := v }), (3#3, { s.wb with offs := v }),
          (5#3, { s.wb with timeout := v })] →
        ∃ t, exec (.mcr .cp1 3 ra r) s = .next t ∧ t.pc = s.pc + 2 ∧ Frame { s with wb := w } t [] [])
      ∧ (∃ t, exec (.mcr .cp1 3 ra 0) s = .next t ∧ t.pc = s.pc + 2
        ∧ LineMoved s.irq t.irq 1 s.wb.line t.wb.line
        ∧ Frame { s with
            wb := { s.wb with
              burst := v.extractLsb' 8 8, enDone := v.getLsbD 3, enErr := v.getLsbD 4, enTo := v.getLsbD 5 },
            irq := t.irq } t [] [])
      ∧ (s.wb.aborted = false → s.wb.tx.length < s.params.wbFifoDepth →
        ∃ t, exec (.mcr .cp1 3 ra 4) s = .next t ∧ t.pc = s.pc + 2
          ∧ Frame { s with wb := { s.wb with tx := s.wb.tx ++ [v] } } t [] [])
      ∧ ∀ n, n = s.wb.burst.toNat + s.params.wbBurstBias.val → n ≤ s.params.wbFifoDepth →
        (∃ t, exec (.cdp .cp1 3 3 0) s = .next t ∧ t.pc = s.pc + 2
          ∧ Frame { s with wb := { s.wb with busy := true, dir := false, left := n, done := 0 } } t [] [])
        ∧ (s.wb.aborted = false → n ≤ s.wb.tx.length → ∃ t, exec (.cdp .cp1 3 3 1) s = .next t ∧ t.pc = s.pc + 2
          ∧ Frame { s with wb := { s.wb with busy := true, dir := true, left := n, done := 0 } } t [] []))

/-- Where a transaction with the system coprocessor is refused: CDP with two different register fields, on a module other
than c3 (so D13 and number 33 of 93_implementation_defined.md; notes/assumptions/14.md) or with a reserved command of c3; the
UART powered down or busy; the SPI busy; a Wishbone register written, or a command given, while a
transfer is in progress; a burst longer than the FIFO, a full TX FIFO, a write transfer of more words than the TX FIFO
holds; the RX FIFO read in a read transfer; a FIFO used after an abort (R237, R371, R373, R383, R402, R404, R406, R407,
R408). That the write command counts as a use of the FIFO after an abort, and the order of the grounds, are the model's
(notes/assumptions/31.md). -/
def Obligations.DeviceStops : Prop :=
  ∀ (s : State) (rd ra : Reg) (n : Nat), s.inSystem = true → n = s.wb.burst.toNat + s.params.wbBurstBias.val →
    (∀ ca cb cmd : BitVec 3, ca ≠ cb → exec (.cdp .cp1 ca cb cmd) s = .refused .cdpFieldsDiffer)
    ∧ (∀ m cmd : BitVec 3, m ≠ 3 → exec (.cdp .cp1 m m cmd) s = .refused .cdpOtherModule)
    ∧ (s.comCtrl.getLsbD 6 = false → exec (.mcr .cp1 2 ra 0) s = .refused .uartPoweredDown)
    ∧ (s.comCtrl.getLsbD 6 = true → s.uart.txBusy = true → exec (.mcr .cp1 2 ra 0) s = .refused .uartBusy)
    ∧ (s.spi.busy = true → ∀ r ∈ [2#3, 3#3, 4#3], exec (.mcr .cp1 2 ra r) s = .refused .spiBusy)
    ∧ (s.wb.busy = true → (∀ r : BitVec 3, exec (.mcr .cp1 3 ra r) s = .refused .wishboneBusy)
        ∧ (∀ cmd : BitVec 3, exec (.cdp .cp1 3 3 cmd) s = .refused .wishboneBusy)
        ∧ (s.wb.dir = false → exec (.mrc .cp1 rd 3 4) s = .refused .rxFifoInTransfer))
    ∧ (s.wb.busy = false → s.wb.aborted = true → exec (.mrc .cp1 rd 3 4) s = .refused .fifoAfterAbort
        ∧ exec (.mcr .cp1 3 ra 4) s = .refused .fifoAfterAbort)
    ∧ (s.wb.busy = false → s.wb.aborted = false → s.params.wbFifoDepth ≤ s.wb.tx.length →
        exec (.mcr .cp1 3 ra 4) s = .refused .txFifoFull)
    ∧ (s.wb.busy = false → (∀ cmd : BitVec 3, 2 ≤ cmd → exec (.cdp .cp1 3 3 cmd) s = .refused .cdpReservedCommand)
        ∧ (s.params.wbFifoDepth < n → ∀ cmd : BitVec 3, cmd < 2 → exec (.cdp .cp1 3 3 cmd) s = .refused .burstTooLong)
        ∧ (n ≤ s.params.wbFifoDepth → s.wb.aborted = true → exec (.cdp .cp1 3 3 1) s = .refused .fifoAfterAbort)
        ∧ (n ≤ s.params.wbFifoDepth → s.wb.aborted = false → s.wb.tx.length < n →
            exec (.cdp .cp1 3 3 1) s = .refused .txFifoShort))

/-! ## Sleep, traps, interrupts -/

/-- SLEEP in system mode stops the core behind itself and changes nothing else; a request whose mask bit is set already
wakes it at once. At the end of every turn of a sleeping core, its own clock cycle or another agent's action, an enabled
request wakes it: into trap entry when GX is set, to the next instruction when it is not. Without one it sleeps on, and no
register, MSR bit or page changes (R252, R253). The wake itself takes no clock cycle, and a turn of a sleeping core is one
clock cycle, both the model's choice (notes/assumptions/8.md, 25.md). -/
def Obligations.SleepAndWake : Prop :=
  (∀ (s : State) (tag : BitVec 9), s.inSystem = true → ∃ t, exec (.sleep tag) s = .next t
    ∧ (s.line0 = false → s.line1 = false → t.pc = s.pc + 2 ∧ Frame { s with sleeping := true } t [] [])
    ∧ (s.line0 = true ∨ s.line1 = true → s.msr.getLsbD 11 = false →
        t.pc = s.pc + 2 ∧ Frame { s with sleeping := false } t [] [])
    ∧ (s.line0 = true → s.msr.getLsbD 11 = true → TrapEntered s t 0x0002 (s.pc + 4))
    ∧ (s.line0 = false → s.line1 = true → s.msr.getLsbD 11 = true → TrapEntered s t 0x0004 (s.pc + 4)))
  ∧ ∀ (s u c : State) (turn : Turn) (rest : List Turn), s.script = turn :: rest → s.sleeping = true →
    u = { s with script := rest } →
    ((turn = .core ∨ turn = .interrupt) ∧ c = u.clockCycle ∨ ∃ e, turn = .agent e ∧ c = agentAct e u) →
    c.sleeping = true → c.clocked = true →
    c.pc = s.pc ∧ SameRegisters s c [] [] ∧ c.mmu = s.mmu
    ∧ (c.line0 = false → c.line1 = false → step s = .next (u.showPins c))
    ∧ (c.line0 = true ∨ c.line1 = true → s.msr.getLsbD 11 = false →
        step s = .next { u.showPins c with sleeping := false })
    ∧ (c.line0 = true → s.msr.getLsbD 11 = true → ∃ t, step s = .next t ∧ TrapEntered (u.showPins c) t 0x0002 (s.pc + 2))
    ∧ (c.line0 = false → c.line1 = true → s.msr.getLsbD 11 = true →
        ∃ t, step s = .next t ∧ TrapEntered (u.showPins c) t 0x0004 (s.pc + 2))

/-- SYSCALL enters the software interrupt trap in either mode, whatever its tag (R259, R286, R290, R291). -/
def Obligations.SystemCall : Prop :=
  ∀ (s : State) (tag : BitVec 10), ∃ t, exec (.syscall tag) s = .next t ∧ TrapEntered s t 0x0008 (s.pc + 4)

/-- In user mode every instruction of the table of R285 enters the command error trap and has no other effect (R239,
R285, R290, R291). -/
def Obligations.UserModeTraps : Prop :=
  ∀ (s : State) (i : Instr), s.inSystem = false →
    systemOnly i = true ∨ (usesCp0 i = true ∧ s.msr.getLsbD 10 = true) →
    ∃ t, exec i s = .next t ∧ TrapEntered s t 0x0006 (s.pc + 4)

/-- Where the core's turn is an interrupt: at a boundary that allows one, with GX and X0 set and the critical line high it
is EXT_INT_0, otherwise with GX and X1 set and a pending channel it is EXT_INT_1, but behind a write of the current I-page
it is refused (R55; notes/assumptions/12.md); otherwise nothing happens. A boundary directly behind a taken transfer, or
between a load and an instruction that uses the loaded register, allows none (R283, R284, R287 to R291, R440); that the
loads are LDR and SWP is the model's reading (notes/assumptions/35.md). -/
def Obligations.InterruptTaken : Prop :=
  (∀ (s u : State) (rest : List Turn), s.script = .interrupt :: rest → s.clocked = true → s.sleeping = false →
    u = { s with script := rest } →
    (s.boundaryOpen = true → s.mmu.iOld = none → s.msr.getLsbD 11 = true → s.line0 = true →
      ∃ t, step s = .next t ∧ TrapEntered u t 0x0002 (s.pc + 2))
    ∧ (s.boundaryOpen = true → s.mmu.iOld = none → s.msr.getLsbD 11 = true → s.line0 = false → s.line1 = true →
      ∃ t, step s = .next t ∧ TrapEntered u t 0x0004 (s.pc + 2))
    ∧ (s.boundaryOpen = true → s.mmu.iOld.isSome = true → s.msr.getLsbD 11 = true → s.line0 = true ∨ s.line1 = true →
      step s = .refused .iPageWithoutTransfer)
    ∧ (s.boundaryOpen = false ∨ s.msr.getLsbD 11 = false ∨ (s.line0 = false ∧ s.line1 = false) → step s = .next u))
  ∧ (∀ s : State, (s.boundary = .free → s.boundaryOpen = true) ∧ (s.boundary = .afterBranch → s.boundaryOpen = false)
    ∧ ∀ rd w i, s.boundary = .afterLoad rd → s.fetch = .ok w → decode w = .ok i →
        s.boundaryOpen = !(usesOf i).contains rd)
  ∧ ∀ (s : State) (i : Instr), (s.beginInstruction i).boundary
      = if s.transfersControl i then .afterBranch
        else match i with
          | .ldr _ _ rd _ _ => .afterLoad rd
          | .swp rd _ _ => .afterLoad rd
          | _ => .free

/-- The handler DEC LR, LR, #2; RETX LR returns from a system call to the address of the next instruction in the mode of
the caller, and leaves the whole user bank, every other system register and every MSR bit but GX and S as before the call.
A caller in user mode is back in its own pages, and so is one in system mode whose page is mmu_irq_base, the single page of
R294 (a); otherwise the system pages stay at mmu_irq_base until the handler puts them back, R294 (b) (R291, R293, R294). -/
def Obligations.TrapReturn : Prop :=
  ∀ (s : State) (tag : BitVec 10), s.pc.getLsbD 0 = false →
    ∃ t u v, exec (.syscall tag) s = .next t ∧ exec (.dec .r7 .r7 false 2) t = .next u
      ∧ exec (.stpc .exchange .r7 false false) u = .next v
      ∧ v.pc = s.pc + 2 ∧ v.inSystem = s.inSystem ∧ v.usr = s.usr ∧ (∀ r, r ≠ .r7 → v.sys.get r = s.sys.get r)
      ∧ (∀ i, i ≠ 11 → i ≠ 14 → v.msr.getLsbD i = s.msr.getLsbD i)
      ∧ (s.inSystem = false ∨ s.mmu.irqBase = s.mmu.sysI → v.iPage = s.iPage)
      ∧ (s.inSystem = false ∨ s.mmu.irqBase = s.mmu.sysD → v.dPage = s.dPage)
      ∧ (s.inSystem = true → v.iPage = s.mmu.irqBase ∧ v.dPage = s.mmu.irqBase)

/-! ## The two modes -/

/-- An instruction in user mode either is one of the list of R285, or a system call, and enters the trap of its cause; or
it leaves the machine in user mode and everything that user mode must not change as it was (R285, R297). -/
def Obligations.UserModeConfined : Prop :=
  ∀ (s t : State) (i : Instr), s.inSystem = false → exec i s = .next t →
    (systemOnly i = true ∨ (usesCp0 i = true ∧ s.msr.getLsbD 10 = true)) ∧ TrapEntered s t 0x0006 (s.pc + 4)
    ∨ (∃ tag, i = .syscall tag) ∧ TrapEntered s t 0x0008 (s.pc + 4)
    ∨ systemOnly i = false ∧ ¬(usesCp0 i = true ∧ s.msr.getLsbD 10 = true) ∧ t.inSystem = false ∧ SystemUntouched s t

/-- What user mode cannot see does not show: in two states that differ only in the system bank, the MSR bits other than
the user flags, M and CP, the MMU and the devices, an instruction ends in the same way, and where it stays in user mode
the two states again differ only there (R297). -/
def Obligations.UserNoninterference : Prop :=
  ∀ (a b : State) (i : Instr), SameForUser a b →
    (∀ t, exec i a = .next t → ∃ u, exec i b = .next u ∧ t.inSystem = u.inSystem ∧ t.pc = u.pc ∧ t.usr = u.usr
        ∧ (t.inSystem = false → SameForUser t u))
    ∧ (∀ f, exec i a = .fault f → exec i b = .fault f)
    ∧ ∀ r, exec i a = .refused r → exec i b = .refused r

/-- System mode is entered from user mode by the hardware reset and by a trap, and by nothing else: after a step from user
to system mode the machine is at a vector with interrupts off, the old mode and pages saved and the system pages at
mmu_irq_base, or it was reset (R290, R296). -/
def Obligations.SystemModeEntry : Prop :=
  ∀ s t : State, step s = .next t → s.inSystem = false → t.inSystem = true →
    (s.nextTurn.1 = .agent .reset ∧ t.pc = 0)
    ∨ ((t.pc = 0x0002 ∨ t.pc = 0x0004 ∨ t.pc = 0x0006 ∨ t.pc = 0x0008)
      ∧ (t.sys.get .r7 = s.pc + 2 ∨ t.sys.get .r7 = s.pc + 4)
      ∧ t.msr.getLsbD 14 = false ∧ t.msr.getLsbD 11 = false
      ∧ t.mmu.sysI = s.mmu.irqBase ∧ t.mmu.sysD = s.mmu.irqBase
      ∧ t.mmu.iLink = s.mmu.usrI ∧ t.mmu.dLink = s.mmu.usrD)

/-! ## Reset and invariants -/

/-- The values the table of R32 gives the machine after a reset, in the reset state of any parameters and by the hardware
reset in any state (the registers it calls unwritten are not stated), with BOOT_CONFIG on SYS_IN_I(1:0); the hardware reset
keeps the memories (R3, R32, R33, R420, R421, R427). -/
def Obligations.ResetValues : Prop :=
  (∀ (s t : State) (p : Params), t = State.resetWith p ∨ t = agentAct .reset s →
    t.pc = 0x0000 ∧ t.msr = 0x8000 ∧ t.sleeping = false ∧ t.mmu.sysI = 0x8000 ∧ t.mmu.sysD = 0x8000
      ∧ t.mmu.irqBase = 0x8000 ∧ t.mmu.infoSel = false ∧ t.irq.mask = 0 ∧ t.irq.pend = 0 ∧ t.timer.thr = 0
      ∧ t.comCtrl.getLsbD 6 = false ∧ t.wb.fDone = false ∧ t.wb.fErr = false ∧ t.wb.fTo = false ∧ t.wb.busy = false
      ∧ t.wb.tx = [] ∧ t.wb.rx = [] ∧ t.readSysIo.extractLsb' 0 2 = t.params.bootConfig)
  ∧ State.reset = State.resetWith defaultParams
  ∧ ∀ s : State, SameMemory s (agentAct .reset s) ∧ (agentAct .reset s).params = s.params

/-- The invariant of `StepKeepsInv` holds after reset. -/
def Obligations.ResetInv : Prop := State.reset.Inv

/-- Every step of every agent keeps the invariant: memories in canonical form and inside the RAM, the pc even, read-only
bits of com_ctrl clear, the FIFOs within their depth, the windows of page writes as R55 has them, no core asleep on an
enabled request (R253), the samples of the pins up to date while the clock runs (R390). -/
def Obligations.StepKeepsInv : Prop := ∀ s t : State, s.Inv → step s = .next t → t.Inv

/-- No step changes a byte of the boot ROM or an implementation parameter (R3, R53, R61), and the page link registers
change only where the step ends in trap entry or is a hardware reset (R290, R366). -/
def Obligations.ConstantState : Prop :=
  ∀ s t : State, step s = .next t →
    t.rom = s.rom ∧ t.params = s.params
      ∧ (t.mmu.iLink ≠ s.mmu.iLink ∨ t.mmu.dLink ≠ s.mmu.dLink →
          s.nextTurn.1 = .agent .reset ∨ (t.pc.toNat ∈ [2, 4, 6, 8] ∧ t.inSystem = true ∧ t.msr.getLsbD 11 = false))

/-- A write of the I-page of the current mode reaches the fetch one instruction late; a write of its D-page reaches the
data accesses at the latest with the third instruction, and until then each uses the old page or the new one (R55). How
the window is kept is the model's (notes/assumptions/11.md, 12.md). -/
def Obligations.PageWrites : Prop :=
  ∀ (s : State) (ra : Reg) (v : Word) (i j k : Instr), s.inSystem = true → v = s.reg ra → s.mmu.iOld = none →
    s.mmu.dOld = [] →
    (∃ t, exec (.mcr .cp1 1 ra 1) s = .next t ∧ t.fetchPage = s.mmu.sysI ∧ (t.beginInstruction i).fetchPage = v)
    ∧ ∃ t, exec (.mcr .cp1 1 ra 2) s = .next t
      ∧ ((t.beginInstruction i).dataPage.1 = s.mmu.sysD ∨ (t.beginInstruction i).dataPage.1 = v)
      ∧ (((t.beginInstruction i).beginInstruction j).dataPage.1 = s.mmu.sysD
          ∨ ((t.beginInstruction i).beginInstruction j).dataPage.1 = v)
      ∧ (((t.beginInstruction i).beginInstruction j).beginInstruction k).dataPage.1 = v

/-! ## Devices over time -/

/-- From cleared counters the timer pulses once in every (timer_prsc + 1) * timer_thr clock cycles, and never while
timer_thr is zero (R341, R342). -/
def Obligations.TimerPeriod : Prop :=
  ∀ (t : Timer) (k : Nat),
    (t.thr = 0 → timerRun k t = (t, 0))
    ∧ (t.thr ≠ 0 → t.cnt = 0 → t.pre = 0 → (timerRun k t).2 = k / ((t.prsc.toNat + 1) * t.thr.toNat))

/-- One cycle of the main clock: while timer_thr is not zero the pre-counter counts to timer_prsc and then timer_cnt counts
on, and where timer_cnt meets timer_thr it starts again from 0 and channel 0 is triggered; then every level-triggered
channel whose line has the configured level is triggered, the adapter's line on channel 1, the pins on channels 6 and 7 of
the bare processor, the others low between pulses. Nothing else changes. While CE_I of the bare processor is low, no turn
of the core, the clock, the UART, the SPI or the adapter has an effect, and when it rises the pins that changed meanwhile
are sampled (R63, R332 to R334, R341 to R343, R390). How pulses and levels trigger is the model's reading, and that the
devices stand still with the core (notes/assumptions/22.md, 34.md). -/
def Obligations.ClockCycle : Prop :=
  (∀ (s : State) (rest : List Turn) (cnt : Word) (hit : Bool) (line : Nat → Bool), s.script = .agent .clock :: rest →
    s.clocked = true → s.sleeping = false →
    cnt = (if s.timer.pre = s.timer.prsc then s.timer.cnt + 1 else s.timer.cnt) →
    hit = decide (s.timer.thr ≠ 0 ∧ cnt = s.timer.thr) →
    (∀ j, line j = (decide (j = 1) && s.wb.line || decide (j = 6) && s.pins.irq0 || decide (j = 7) && s.pins.irq1)) →
    ∃ (t : Timer) (q : IrqCtl), step s = .next { s with script := rest, timer := t, irq := q }
      ∧ (s.timer.thr = 0 → t = s.timer)
      ∧ (s.timer.thr ≠ 0 → t = { s.timer with
          cnt := if hit then 0 else cnt, pre := if s.timer.pre = s.timer.prsc then 0 else s.timer.pre + 1 })
      ∧ q.mask = s.irq.mask ∧ q.conf = s.irq.conf
      ∧ ∀ j, j < 8 → q.pend.getLsbD j = (s.irq.pend.getLsbD j || s.irq.mask.getLsbD j
          && (decide (j = 0) && hit || s.irq.conf.getLsbD j && (decide (j < 6) || s.params.bareProcessor)
            && decide (line j = s.irq.conf.getLsbD (8 + j)))))
  ∧ (∀ (s : State) (rest : List Turn) (turn : Turn) (b : Byte) (w : Word) (r : WbReply), s.script = turn :: rest →
    s.clocked = false →
    turn ∈ [.core, .interrupt, .agent .clock, .agent (.uartReceived b), .agent .uartSent, .agent (.spiFinished w),
      .agent (.wishbone r)] →
    step s = .next { s with script := rest })
  ∧ ∀ s : State, s.clocked = false → ∃ q5 q6 q7 : IrqCtl,
    (if s.pins.pioIn = s.seen.pioIn then q5 = s.irq else Triggered s.irq q5 5)
      ∧ LineMoved q5 q6 6 s.seen.irq0 s.pins.irq0 ∧ LineMoved q6 q7 7 s.seen.irq1 s.pins.irq1
      ∧ agentAct (.clockEnable true) s = { s with
          pins := { s.pins with ce := true }, irq := q7,
          seen := { pioIn := s.pins.pioIn, irq0 := s.pins.irq0, irq1 := s.pins.irq1 } }

/-- The actions of the devices and the host while the clock runs: a byte received by the activated UART (on overrun it
keeps either byte), the end of a UART or SPI transmission and a change of PIO_IN_I each trigger their channel, which
becomes pending exactly when its mask bit is set; a pin IRQ_I of the bare processor triggers its channel on the configured
edge or level, and nothing in the base setup; the critical pin and SYS_IN_I only take their levels, and the host's memory
its word. Nothing else changes (R31, R65, R332 to R334, R371, R373, R374, R383, R390, R392). That an internal pulse
triggers in each of the four configurations, and when a level is sampled, is the model's reading (notes/assumptions/22.md);
the other byte of an overrun is a free value (notes/assumptions/19.md). That a UART transmission ends in this way with
com_ctrl bit 6 clear too, and that the host of the bare processor may change a word of its memory, are the model's choices
(notes/assumptions/26.md, 34.md). -/
def Obligations.DeviceEvents : Prop :=
  ∀ (s : State) (b : Byte) (v : Word) (level : Bool), s.clocked = true →
    (s.comCtrl.getLsbD 6 = false → agentAct (.uartReceived b) s = s)
    ∧ (s.comCtrl.getLsbD 6 = true → s.uart.rxReady = false → ∃ q, Triggered s.irq q 2
      ∧ agentAct (.uartReceived b) s = { s with uart := { s.uart with rxData := b, rxReady := true }, irq := q })
    ∧ (s.comCtrl.getLsbD 6 = true → s.uart.rxReady = true → ∃ q d n, Triggered s.irq q 2 ∧ (d = b ∨ d = s.uart.rxData)
      ∧ agentAct (.uartReceived b) s = { s with uart := { s.uart with rxData := d }, irq := q, draws := n })
    ∧ (s.uart.txBusy = true → ∃ q, Triggered s.irq q 3
      ∧ agentAct .uartSent s = { s with uart := { s.uart with txBusy := false }, irq := q })
    ∧ (s.spi.busy = true → ∃ q, Triggered s.irq q 4
      ∧ agentAct (.spiFinished v) s = { s with spi := { s.spi with data := v, busy := false }, irq := q })
    ∧ (∃ q, (if v = s.seen.pioIn then q = s.irq else Triggered s.irq q 5)
      ∧ agentAct (.pioPins v) s
          = { s with pins := { s.pins with pioIn := v }, seen := { s.seen with pioIn := v }, irq := q })
    ∧ (∃ q, (if s.params.bareProcessor = true then LineMoved s.irq q 6 s.seen.irq0 level else q = s.irq)
      ∧ agentAct (.irqPin0 level) s
          = { s with pins := { s.pins with irq0 := level }, seen := { s.seen with irq0 := level }, irq := q })
    ∧ (∃ q, (if s.params.bareProcessor = true then LineMoved s.irq q 7 s.seen.irq1 level else q = s.irq)
      ∧ agentAct (.irqPin1 level) s
          = { s with pins := { s.pins with irq1 := level }, seen := { s.seen with irq1 := level }, irq := q })
    ∧ agentAct (.criticalPin level) s = { s with pins := { s.pins with critical := level } }
    ∧ agentAct (.sysPins b) s = { s with pins := { s.pins with sysIn := b } }
    ∧ agentAct (.clockEnable level) s = { s with pins := { s.pins with ce := level } }
    ∧ ∀ page a : Word, (s.params.bareProcessor = false → agentAct (.hostMemory page a v) s = s)
      ∧ (s.params.bareProcessor = true → page.getLsbD 15 = false →
          StoredAt s (agentAct (.hostMemory page a v) s) page (a &&& 0xFFFE) v
          ∧ agentAct (.hostMemory page a v) s = { s with ram := (agentAct (.hostMemory page a v) s).ram })

/-- A whole transfer of n words, each acknowledged: n accesses at the addresses base, base + offs, base + 2 offs, … in
order; a read appends the words to the RX FIFO, a write takes the oldest words of the TX FIFO; then the done flag is set
and the adapter is idle. An error or a timeout ends a transfer at its next access, with the flag of its cause, and leaves
the core, the memories and every other device alone; FIFOs and base address are then open values (notes/assumptions/15.md).
At either end channel 1 sees what that does to its line (R401, R403, R408 to R410). -/
def Obligations.WishboneBurst : Prop :=
  (∀ (s t : State) (ws : List Word) (n : Nat), s.inSystem = true → s.wb.busy = false → s.wb.aborted = false →
    n = s.wb.burst.toNat + s.params.wbBurstBias.val → 1 ≤ n → ws.length = n →
    (exec (.cdp .cp1 3 3 0) s = .next t → s.wb.rx.length + n ≤ s.params.wbFifoDepth →
      (acknowledge t ws).wb.rx = s.wb.rx ++ ws ∧ (acknowledge t ws).wb.tx = s.wb.tx
        ∧ (acknowledge t ws).wb.fDone = true ∧ (acknowledge t ws).wb.busy = false
        ∧ LineMoved s.irq (acknowledge t ws).irq 1 s.wb.line (acknowledge t ws).wb.line
        ∧ (acknowledge t ws).record
            = s.record ++ (List.range n).map (fun i => .wishboneRead (BitVec.ofNat 32 (burstAddress s.wb i))))
    ∧ (exec (.cdp .cp1 3 3 1) s = .next t →
      (acknowledge t ws).wb.tx = s.wb.tx.drop n ∧ (acknowledge t ws).wb.rx = s.wb.rx
        ∧ (acknowledge t ws).wb.fDone = true ∧ (acknowledge t ws).wb.busy = false
        ∧ LineMoved s.irq (acknowledge t ws).irq 1 s.wb.line (acknowledge t ws).wb.line
        ∧ (acknowledge t ws).record
            = s.record ++ (List.range n).map
                (fun i => .wishboneWrite (BitVec.ofNat 32 (burstAddress s.wb i)) (s.wb.tx.getD i 0))))
  ∧ ∀ (s t : State) (r : WbReply), s.clocked = true → s.wb.busy = true → s.wb.left ≠ 0 → r = .err ∨ r = .timeout →
    t = agentAct (.wishbone r) s →
    t.wb.busy = false ∧ t.wb.aborted = true ∧ t.wb.fDone = s.wb.fDone ∧ t.wb.fErr = (s.wb.fErr || decide (r = .err))
      ∧ t.wb.fTo = (s.wb.fTo || decide (r = .timeout)) ∧ t.wb.dir = s.wb.dir
      ∧ t.wb.line = (t.wb.fDone && t.wb.enDone || t.wb.fErr && t.wb.enErr || t.wb.fTo && t.wb.enTo)
      ∧ (t.wb.burst, t.wb.enDone, t.wb.enErr, t.wb.enTo) = (s.wb.burst, s.wb.enDone, s.wb.enErr, s.wb.enTo)
      ∧ (t.wb.offs, t.wb.timeout) = (s.wb.offs, s.wb.timeout)
      ∧ LineMoved s.irq t.irq 1 s.wb.line t.wb.line
      ∧ t.record = s.record ++ [if s.wb.dir then
            .wishboneWrite (BitVec.ofNat 32 (burstAddress s.wb s.wb.done)) (s.wb.tx.headD 0)
          else .wishboneRead (BitVec.ofNat 32 (burstAddress s.wb s.wb.done))]
      ∧ t.pc = s.pc ∧ Frame { s with wb := t.wb, irq := t.irq, record := t.record } t [] []
end

