-- ==== Sys2Proof/Laws/Memory.lean ====
section
/-! SUPPORT. The laws of memory: a byte reads as it was written last, every operation keeps the canonical form and the
bounds, and the words of spec/20_memory.md R58 to R61 over them. -/

namespace Sys2Proof.Laws

open Sys2Proof.Machine

/-- Read after write (R65). -/
@[simp] theorem read_write (m : Memory) (a b : Nat) (v : Byte) :
    (m.write a v).read b = if b = a then some v else m.read b := by
  induction m with
  | nil => simp [Memory.write, Memory.read, eq_comm]
  | cons c m ih =>
    obtain ⟨k, x⟩ := c
    unfold Memory.write
    split
    · simp only [Memory.read, eq_comm]
    · split
      · subst_vars
        simp only [Memory.read, eq_comm]
        split <;> rfl
      · simp only [Memory.read, ih]
        by_cases hk : k = b
        · have : b ≠ a := by omega
          simp [hk, this]
        · simp [hk]

/-- The first address of a write is the written one or the first address there was. -/
theorem head_write (m : Memory) (a : Nat) (v : Byte) :
    ∃ c t, m.write a v = c :: t ∧ (c.1 = a ∨ ∃ t', m = (c.1, c.2) :: t') := by
  cases m with
  | nil => exact ⟨_, _, rfl, .inl rfl⟩
  | cons c m =>
    obtain ⟨k, x⟩ := c
    unfold Memory.write
    split
    · exact ⟨_, _, rfl, .inl rfl⟩
    · split
      · exact ⟨_, _, rfl, .inl rfl⟩
      · exact ⟨_, _, rfl, .inr ⟨m, rfl⟩⟩

theorem wf_cons (k : Nat) (x : Byte) (m : Memory) :
    Memory.wf ((k, x) :: m) = true ↔ (∀ c t, m = c :: t → k < c.1) ∧ Memory.wf m = true := by
  cases m with
  | nil => simp [Memory.wf]
  | cons c m =>
    obtain ⟨b, y⟩ := c
    simp [Memory.wf]

/-- A write keeps the canonical form. -/
theorem wf_write {m : Memory} (h : m.wf = true) (a : Nat) (v : Byte) : (m.write a v).wf = true := by
  induction m with
  | nil => rfl
  | cons c m ih =>
    obtain ⟨k, x⟩ := c
    rw [wf_cons] at h
    obtain ⟨hk, hm⟩ := h
    unfold Memory.write
    split
    · rw [wf_cons, wf_cons]
      refine ⟨?_, hk, hm⟩
      rintro c t ⟨⟩
      assumption
    · split
      · subst_vars
        rw [wf_cons]
        exact ⟨hk, hm⟩
      · rw [wf_cons]
        refine ⟨?_, ih hm⟩
        intro c t hc
        obtain ⟨d, u, hd, h1⟩ := head_write m a v
        rw [hd] at hc
        cases hc
        rcases h1 with h1 | ⟨t', h1⟩
        · omega
        · exact hk _ _ h1

/-- A word write keeps the canonical form. -/
theorem wf_writeWord {m : Memory} (h : m.wf = true) (k : Nat) (w : Word) : (m.writeWord k w).wf = true :=
  wf_write (wf_write h _ _) _ _

/-- Loading an image keeps the canonical form. -/
theorem wf_loadWords (ws : List Word) : ∀ {m : Memory}, m.wf = true → ∀ k, (m.loadWords k ws).wf = true := by
  induction ws with
  | nil => intro m h k; exact h
  | cons w ws ih => intro m h k; exact ih (wf_writeWord h k w) _

/-- The memories of the state after reset are in canonical form. -/
theorem wf_reset : State.reset.ram.wf = true ∧ State.reset.rom.wf = true := ⟨rfl, rfl⟩

/-- A write inside the bound keeps every address inside it. -/
theorem below_write {m : Memory} {n a : Nat} (h : m.below n = true) (ha : a < n) (v : Byte) :
    (m.write a v).below n = true := by
  induction m with
  | nil => simpa [Memory.write, Memory.below] using ha
  | cons c m ih =>
    obtain ⟨k, x⟩ := c
    simp only [Memory.below, List.all_cons, Bool.and_eq_true, decide_eq_true_eq] at h ih
    unfold Memory.write
    split
    · simpa [Memory.below, ha] using h
    · split
      · simpa [Memory.below, ha] using h.2
      · simpa [Memory.below, h.1] using ih h.2

theorem below_writeWord {m : Memory} {n k : Nat} (h : m.below n = true) (hk : k + 1 < n) (w : Word) :
    (m.writeWord k w).below n = true :=
  below_write (below_write h (by omega) _) hk _

/-- A byte after a word write. -/
theorem read_writeWord (m : Memory) (k a : Nat) (w : Word) :
    (m.writeWord k w).read a = if a = k + 1 then some (highByte w) else if a = k then some (lowByte w) else m.read a := by
  simp [Memory.writeWord]

/-- The two bytes of a word make the word (R58). -/
@[simp] theorem wordOfBytes_bytes (w : Word) : wordOfBytes (lowByte w) (highByte w) = w := by
  unfold wordOfBytes lowByte highByte
  ext i hi
  simp only [BitVec.getElem_append, BitVec.getElem_extractLsb']
  by_cases h8 : i < 8
  · simp [h8, BitVec.getLsbD_eq_getElem hi]
  · have e : 8 + (i - 8) = i := by omega
    simp [h8, e, BitVec.getLsbD_eq_getElem hi]

/-- A word reads as it was written. -/
theorem readWord_writeWord_same (m : Memory) (k : Nat) (w : Word) : (m.writeWord k w).readWord k = some w := by
  simp [Memory.readWord, read_writeWord]

/-- A word that the written word does not touch reads as before. -/
theorem readWord_writeWord_other (m : Memory) (k j : Nat) (w : Word) (h : j + 1 < k ∨ k + 1 < j) :
    (m.writeWord k w).readWord j = m.readWord j := by
  have h0 : (m.writeWord k w).read j = m.read j := by
    rw [read_writeWord, if_neg (by omega), if_neg (by omega)]
  have h1 : (m.writeWord k w).read (j + 1) = m.read (j + 1) := by
    rw [read_writeWord, if_neg (by omega), if_neg (by omega)]
  simp only [Memory.readWord, h0, h1]

/-- What a word access sees of the memory is its two bytes. -/
theorem readWord_congr {m n : Memory} (h : ∀ a, m.read a = n.read a) (k : Nat) : m.readWord k = n.readWord k := by
  simp [Memory.readWord, h]

/-- The swap of an odd address undoes itself (R60, R61). -/
@[simp] theorem accessOrder_twice (a w : Word) : accessOrder a (accessOrder a w) = w := by
  unfold accessOrder
  split
  · unfold swapBytes
    ext i hi
    simp only [BitVec.getElem_append, BitVec.getElem_extractLsb', BitVec.getLsbD_append, BitVec.getLsbD_extractLsb']
    by_cases h8 : i < 8
    · simp [h8, BitVec.getLsbD_eq_getElem hi]
    · have : i - 8 < 8 := by omega
      have e : 8 + (i - 8) = i := by omega
      simp [h8, this, e, BitVec.getLsbD_eq_getElem hi]
  · rfl

/-- A page of at least one word decodes at least one address bit, on either unit of R2. -/
theorem one_le_addressBits {p : Params} (h : 1 ≤ p.pageSizeLog2) : 1 ≤ addressBits p := by
  unfold addressBits
  split <;> omega

/-- A memory address is even and its word lies inside the memory (R51, R54). -/
theorem ramAddress_even (p : Params) (page a : Word) (h : 1 ≤ p.pageSizeLog2) : ramAddress p page a % 2 = 0 := by
  obtain ⟨n, hn⟩ : ∃ n, addressBits p = n + 1 := ⟨addressBits p - 1, by have := one_le_addressBits h; omega⟩
  unfold ramAddress
  rw [hn, pow_succ, ← Nat.mul_assoc]
  omega

theorem ramAddress_inside (p : Params) (page a : Word) (h : 1 ≤ p.pageSizeLog2) :
    ramAddress p page a + 1 < ramSize p := by
  obtain ⟨n, hn⟩ : ∃ n, addressBits p = n + 1 := ⟨addressBits p - 1, by have := one_le_addressBits h; omega⟩
  have hp : page.toNat % 2 ^ pageBits p < 2 ^ pageBits p := Nat.mod_lt _ (by positivity)
  have hs : a.toNat % (2 ^ n * 2) < 2 ^ n * 2 := Nat.mod_lt _ (by positivity)
  have hm : (page.toNat % 2 ^ pageBits p + 1) * (2 ^ n * 2) ≤ 2 ^ pageBits p * (2 ^ n * 2) :=
    Nat.mul_le_mul_right _ hp
  unfold ramAddress ramSize
  rw [hn, pow_succ]
  rw [Nat.add_mul, Nat.one_mul] at hm
  generalize (page.toNat % 2 ^ pageBits p) * (2 ^ n * 2) = x at *
  generalize 2 ^ pageBits p * (2 ^ n * 2) = y at *
  omega

/-- What a store can do: nothing to the boot ROM, nothing to the two fetched words, and otherwise one whole word (R61,
R68). -/
theorem memWrite_spec {s t : State} {f p a v : Word} (h : s.memWrite f p a v = .ok t) :
    inRom p = false ∧ s.hitsFetched f p a = false
      ∧ t = { s with ram := s.ram.writeWord (ramAddress s.params p a) (accessOrder a v) } := by
  unfold State.memWrite at h
  split at h
  · cases h
  · split at h
    · cases h
    · cases h
      exact ⟨by simpa using ‹¬inRom p = true›, by simpa using ‹¬s.hitsFetched f p a = true›, rfl⟩

/-- What a load can see: the word of the RAM or of the ROM, in the order of the address (R53, R54, R60). -/
theorem memRead_spec {s : State} {p a v : Word} (h : s.memRead p a = .ok v) :
    ∃ w, s.wordAt p a = .ok w ∧ v = accessOrder a w := by
  unfold State.memRead at h
  cases hw : s.wordAt p a with
  | error f => simp [hw, Except.map] at h
  | ok w =>
    simp only [hw, Except.map, Except.ok.injEq] at h
    exact ⟨w, rfl, h.symm⟩

end Sys2Proof.Laws
end

