-- ==== Sys2Proof/Laws/State.lean ====
section
/-! SUPPORT. One lemma per field and update: what each named update of the state leaves of every field. -/

namespace Sys2Proof.Laws

open Sys2Proof.Machine

section setReg
variable (s : State) (r : Reg) (w : Word)
@[simp] theorem setReg_pc : (s.setReg r w).pc = s.pc := by unfold State.setReg; split <;> rfl
@[simp] theorem setReg_msr : (s.setReg r w).msr = s.msr := by unfold State.setReg; split <;> rfl
@[simp] theorem setReg_sleeping : (s.setReg r w).sleeping = s.sleeping := by unfold State.setReg; split <;> rfl
@[simp] theorem setReg_mmu : (s.setReg r w).mmu = s.mmu := by unfold State.setReg; split <;> rfl
@[simp] theorem setReg_irq : (s.setReg r w).irq = s.irq := by unfold State.setReg; split <;> rfl
@[simp] theorem setReg_timer : (s.setReg r w).timer = s.timer := by unfold State.setReg; split <;> rfl
@[simp] theorem setReg_lfsr : (s.setReg r w).lfsr = s.lfsr := by unfold State.setReg; split <;> rfl
@[simp] theorem setReg_comCtrl : (s.setReg r w).comCtrl = s.comCtrl := by unfold State.setReg; split <;> rfl
@[simp] theorem setReg_uart : (s.setReg r w).uart = s.uart := by unfold State.setReg; split <;> rfl
@[simp] theorem setReg_spi : (s.setReg r w).spi = s.spi := by unfold State.setReg; split <;> rfl
@[simp] theorem setReg_pio : (s.setReg r w).pio = s.pio := by unfold State.setReg; split <;> rfl
@[simp] theorem setReg_wb : (s.setReg r w).wb = s.wb := by unfold State.setReg; split <;> rfl
@[simp] theorem setReg_ram : (s.setReg r w).ram = s.ram := by unfold State.setReg; split <;> rfl
@[simp] theorem setReg_rom : (s.setReg r w).rom = s.rom := by unfold State.setReg; split <;> rfl
@[simp] theorem setReg_pins : (s.setReg r w).pins = s.pins := by unfold State.setReg; split <;> rfl
@[simp] theorem setReg_seen : (s.setReg r w).seen = s.seen := by unfold State.setReg; split <;> rfl
@[simp] theorem setReg_boundary : (s.setReg r w).boundary = s.boundary := by unfold State.setReg; split <;> rfl
@[simp] theorem setReg_script : (s.setReg r w).script = s.script := by unfold State.setReg; split <;> rfl
@[simp] theorem setReg_record : (s.setReg r w).record = s.record := by unfold State.setReg; split <;> rfl
@[simp] theorem setReg_draws : (s.setReg r w).draws = s.draws := by unfold State.setReg; split <;> rfl
@[simp] theorem setReg_params : (s.setReg r w).params = s.params := by unfold State.setReg; split <;> rfl
end setReg

section setFlag
variable (s : State) (k : Flag) (v : Bool)
@[simp] theorem setFlag_pc : (s.setFlag k v).pc = s.pc := rfl
@[simp] theorem setFlag_usr : (s.setFlag k v).usr = s.usr := rfl
@[simp] theorem setFlag_sys : (s.setFlag k v).sys = s.sys := rfl
@[simp] theorem setFlag_sleeping : (s.setFlag k v).sleeping = s.sleeping := rfl
@[simp] theorem setFlag_mmu : (s.setFlag k v).mmu = s.mmu := rfl
@[simp] theorem setFlag_irq : (s.setFlag k v).irq = s.irq := rfl
@[simp] theorem setFlag_timer : (s.setFlag k v).timer = s.timer := rfl
@[simp] theorem setFlag_lfsr : (s.setFlag k v).lfsr = s.lfsr := rfl
@[simp] theorem setFlag_comCtrl : (s.setFlag k v).comCtrl = s.comCtrl := rfl
@[simp] theorem setFlag_uart : (s.setFlag k v).uart = s.uart := rfl
@[simp] theorem setFlag_spi : (s.setFlag k v).spi = s.spi := rfl
@[simp] theorem setFlag_pio : (s.setFlag k v).pio = s.pio := rfl
@[simp] theorem setFlag_wb : (s.setFlag k v).wb = s.wb := rfl
@[simp] theorem setFlag_ram : (s.setFlag k v).ram = s.ram := rfl
@[simp] theorem setFlag_rom : (s.setFlag k v).rom = s.rom := rfl
@[simp] theorem setFlag_pins : (s.setFlag k v).pins = s.pins := rfl
@[simp] theorem setFlag_seen : (s.setFlag k v).seen = s.seen := rfl
@[simp] theorem setFlag_boundary : (s.setFlag k v).boundary = s.boundary := rfl
@[simp] theorem setFlag_script : (s.setFlag k v).script = s.script := rfl
@[simp] theorem setFlag_record : (s.setFlag k v).record = s.record := rfl
@[simp] theorem setFlag_draws : (s.setFlag k v).draws = s.draws := rfl
@[simp] theorem setFlag_params : (s.setFlag k v).params = s.params := rfl
end setFlag

section setAluFlags
variable (s : State) (f : AluFlags)
@[simp] theorem setAluFlags_pc : (s.setAluFlags f).pc = s.pc := rfl
@[simp] theorem setAluFlags_usr : (s.setAluFlags f).usr = s.usr := rfl
@[simp] theorem setAluFlags_sys : (s.setAluFlags f).sys = s.sys := rfl
@[simp] theorem setAluFlags_sleeping : (s.setAluFlags f).sleeping = s.sleeping := rfl
@[simp] theorem setAluFlags_mmu : (s.setAluFlags f).mmu = s.mmu := rfl
@[simp] theorem setAluFlags_irq : (s.setAluFlags f).irq = s.irq := rfl
@[simp] theorem setAluFlags_timer : (s.setAluFlags f).timer = s.timer := rfl
@[simp] theorem setAluFlags_lfsr : (s.setAluFlags f).lfsr = s.lfsr := rfl
@[simp] theorem setAluFlags_comCtrl : (s.setAluFlags f).comCtrl = s.comCtrl := rfl
@[simp] theorem setAluFlags_uart : (s.setAluFlags f).uart = s.uart := rfl
@[simp] theorem setAluFlags_spi : (s.setAluFlags f).spi = s.spi := rfl
@[simp] theorem setAluFlags_pio : (s.setAluFlags f).pio = s.pio := rfl
@[simp] theorem setAluFlags_wb : (s.setAluFlags f).wb = s.wb := rfl
@[simp] theorem setAluFlags_ram : (s.setAluFlags f).ram = s.ram := rfl
@[simp] theorem setAluFlags_rom : (s.setAluFlags f).rom = s.rom := rfl
@[simp] theorem setAluFlags_pins : (s.setAluFlags f).pins = s.pins := rfl
@[simp] theorem setAluFlags_seen : (s.setAluFlags f).seen = s.seen := rfl
@[simp] theorem setAluFlags_boundary : (s.setAluFlags f).boundary = s.boundary := rfl
@[simp] theorem setAluFlags_script : (s.setAluFlags f).script = s.script := rfl
@[simp] theorem setAluFlags_record : (s.setAluFlags f).record = s.record := rfl
@[simp] theorem setAluFlags_draws : (s.setAluFlags f).draws = s.draws := rfl
@[simp] theorem setAluFlags_params : (s.setAluFlags f).params = s.params := rfl
end setAluFlags

section setAluFlagsIf
variable (s : State) (sf : Bool) (f : AluFlags)
@[simp] theorem setAluFlagsIf_pc : (s.setAluFlagsIf sf f).pc = s.pc := by cases sf <;> rfl
@[simp] theorem setAluFlagsIf_usr : (s.setAluFlagsIf sf f).usr = s.usr := by cases sf <;> rfl
@[simp] theorem setAluFlagsIf_sys : (s.setAluFlagsIf sf f).sys = s.sys := by cases sf <;> rfl
@[simp] theorem setAluFlagsIf_sleeping : (s.setAluFlagsIf sf f).sleeping = s.sleeping := by cases sf <;> rfl
@[simp] theorem setAluFlagsIf_mmu : (s.setAluFlagsIf sf f).mmu = s.mmu := by cases sf <;> rfl
@[simp] theorem setAluFlagsIf_irq : (s.setAluFlagsIf sf f).irq = s.irq := by cases sf <;> rfl
@[simp] theorem setAluFlagsIf_timer : (s.setAluFlagsIf sf f).timer = s.timer := by cases sf <;> rfl
@[simp] theorem setAluFlagsIf_lfsr : (s.setAluFlagsIf sf f).lfsr = s.lfsr := by cases sf <;> rfl
@[simp] theorem setAluFlagsIf_comCtrl : (s.setAluFlagsIf sf f).comCtrl = s.comCtrl := by cases sf <;> rfl
@[simp] theorem setAluFlagsIf_uart : (s.setAluFlagsIf sf f).uart = s.uart := by cases sf <;> rfl
@[simp] theorem setAluFlagsIf_spi : (s.setAluFlagsIf sf f).spi = s.spi := by cases sf <;> rfl
@[simp] theorem setAluFlagsIf_pio : (s.setAluFlagsIf sf f).pio = s.pio := by cases sf <;> rfl
@[simp] theorem setAluFlagsIf_wb : (s.setAluFlagsIf sf f).wb = s.wb := by cases sf <;> rfl
@[simp] theorem setAluFlagsIf_ram : (s.setAluFlagsIf sf f).ram = s.ram := by cases sf <;> rfl
@[simp] theorem setAluFlagsIf_rom : (s.setAluFlagsIf sf f).rom = s.rom := by cases sf <;> rfl
@[simp] theorem setAluFlagsIf_pins : (s.setAluFlagsIf sf f).pins = s.pins := by cases sf <;> rfl
@[simp] theorem setAluFlagsIf_seen : (s.setAluFlagsIf sf f).seen = s.seen := by cases sf <;> rfl
@[simp] theorem setAluFlagsIf_boundary : (s.setAluFlagsIf sf f).boundary = s.boundary := by cases sf <;> rfl
@[simp] theorem setAluFlagsIf_script : (s.setAluFlagsIf sf f).script = s.script := by cases sf <;> rfl
@[simp] theorem setAluFlagsIf_record : (s.setAluFlagsIf sf f).record = s.record := by cases sf <;> rfl
@[simp] theorem setAluFlagsIf_draws : (s.setAluFlagsIf sf f).draws = s.draws := by cases sf <;> rfl
@[simp] theorem setAluFlagsIf_params : (s.setAluFlagsIf sf f).params = s.params := by cases sf <;> rfl
end setAluFlagsIf

section setPc
variable (s : State) (w : Word)
@[simp] theorem setPc_msr : (s.setPc w).msr = s.msr := rfl
@[simp] theorem setPc_usr : (s.setPc w).usr = s.usr := rfl
@[simp] theorem setPc_sys : (s.setPc w).sys = s.sys := rfl
@[simp] theorem setPc_sleeping : (s.setPc w).sleeping = s.sleeping := rfl
@[simp] theorem setPc_mmu : (s.setPc w).mmu = s.mmu := rfl
@[simp] theorem setPc_irq : (s.setPc w).irq = s.irq := rfl
@[simp] theorem setPc_timer : (s.setPc w).timer = s.timer := rfl
@[simp] theorem setPc_lfsr : (s.setPc w).lfsr = s.lfsr := rfl
@[simp] theorem setPc_comCtrl : (s.setPc w).comCtrl = s.comCtrl := rfl
@[simp] theorem setPc_uart : (s.setPc w).uart = s.uart := rfl
@[simp] theorem setPc_spi : (s.setPc w).spi = s.spi := rfl
@[simp] theorem setPc_pio : (s.setPc w).pio = s.pio := rfl
@[simp] theorem setPc_wb : (s.setPc w).wb = s.wb := rfl
@[simp] theorem setPc_ram : (s.setPc w).ram = s.ram := rfl
@[simp] theorem setPc_rom : (s.setPc w).rom = s.rom := rfl
@[simp] theorem setPc_pins : (s.setPc w).pins = s.pins := rfl
@[simp] theorem setPc_seen : (s.setPc w).seen = s.seen := rfl
@[simp] theorem setPc_boundary : (s.setPc w).boundary = s.boundary := rfl
@[simp] theorem setPc_script : (s.setPc w).script = s.script := rfl
@[simp] theorem setPc_record : (s.setPc w).record = s.record := rfl
@[simp] theorem setPc_draws : (s.setPc w).draws = s.draws := rfl
@[simp] theorem setPc_params : (s.setPc w).params = s.params := rfl
end setPc

section advance
variable (s : State)
@[simp] theorem advance_msr : s.advance.msr = s.msr := rfl
@[simp] theorem advance_usr : s.advance.usr = s.usr := rfl
@[simp] theorem advance_sys : s.advance.sys = s.sys := rfl
@[simp] theorem advance_sleeping : s.advance.sleeping = s.sleeping := rfl
@[simp] theorem advance_mmu : s.advance.mmu = s.mmu := rfl
@[simp] theorem advance_irq : s.advance.irq = s.irq := rfl
@[simp] theorem advance_timer : s.advance.timer = s.timer := rfl
@[simp] theorem advance_lfsr : s.advance.lfsr = s.lfsr := rfl
@[simp] theorem advance_comCtrl : s.advance.comCtrl = s.comCtrl := rfl
@[simp] theorem advance_uart : s.advance.uart = s.uart := rfl
@[simp] theorem advance_spi : s.advance.spi = s.spi := rfl
@[simp] theorem advance_pio : s.advance.pio = s.pio := rfl
@[simp] theorem advance_wb : s.advance.wb = s.wb := rfl
@[simp] theorem advance_ram : s.advance.ram = s.ram := rfl
@[simp] theorem advance_rom : s.advance.rom = s.rom := rfl
@[simp] theorem advance_pins : s.advance.pins = s.pins := rfl
@[simp] theorem advance_seen : s.advance.seen = s.seen := rfl
@[simp] theorem advance_boundary : s.advance.boundary = s.boundary := rfl
@[simp] theorem advance_script : s.advance.script = s.script := rfl
@[simp] theorem advance_record : s.advance.record = s.record := rfl
@[simp] theorem advance_draws : s.advance.draws = s.draws := rfl
@[simp] theorem advance_params : s.advance.params = s.params := rfl
end advance

section enterTrap
variable (s : State) (t : Trap) (link : Word)
@[simp] theorem enterTrap_usr : (s.enterTrap t link).usr = s.usr := rfl
@[simp] theorem enterTrap_irq : (s.enterTrap t link).irq = s.irq := rfl
@[simp] theorem enterTrap_timer : (s.enterTrap t link).timer = s.timer := rfl
@[simp] theorem enterTrap_lfsr : (s.enterTrap t link).lfsr = s.lfsr := rfl
@[simp] theorem enterTrap_comCtrl : (s.enterTrap t link).comCtrl = s.comCtrl := rfl
@[simp] theorem enterTrap_uart : (s.enterTrap t link).uart = s.uart := rfl
@[simp] theorem enterTrap_spi : (s.enterTrap t link).spi = s.spi := rfl
@[simp] theorem enterTrap_pio : (s.enterTrap t link).pio = s.pio := rfl
@[simp] theorem enterTrap_wb : (s.enterTrap t link).wb = s.wb := rfl
@[simp] theorem enterTrap_ram : (s.enterTrap t link).ram = s.ram := rfl
@[simp] theorem enterTrap_rom : (s.enterTrap t link).rom = s.rom := rfl
@[simp] theorem enterTrap_pins : (s.enterTrap t link).pins = s.pins := rfl
@[simp] theorem enterTrap_seen : (s.enterTrap t link).seen = s.seen := rfl
@[simp] theorem enterTrap_boundary : (s.enterTrap t link).boundary = s.boundary := rfl
@[simp] theorem enterTrap_script : (s.enterTrap t link).script = s.script := rfl
@[simp] theorem enterTrap_record : (s.enterTrap t link).record = s.record := rfl
@[simp] theorem enterTrap_draws : (s.enterTrap t link).draws = s.draws := rfl
@[simp] theorem enterTrap_params : (s.enterTrap t link).params = s.params := rfl
end enterTrap

section linkIf
variable (s : State) (link : Bool)
@[simp] theorem linkIf_pc : (s.linkIf link).pc = s.pc := by cases link <;> simp [State.linkIf]
@[simp] theorem linkIf_msr : (s.linkIf link).msr = s.msr := by cases link <;> simp [State.linkIf]
@[simp] theorem linkIf_sleeping : (s.linkIf link).sleeping = s.sleeping := by cases link <;> simp [State.linkIf]
@[simp] theorem linkIf_mmu : (s.linkIf link).mmu = s.mmu := by cases link <;> simp [State.linkIf]
@[simp] theorem linkIf_irq : (s.linkIf link).irq = s.irq := by cases link <;> simp [State.linkIf]
@[simp] theorem linkIf_timer : (s.linkIf link).timer = s.timer := by cases link <;> simp [State.linkIf]
@[simp] theorem linkIf_lfsr : (s.linkIf link).lfsr = s.lfsr := by cases link <;> simp [State.linkIf]
@[simp] theorem linkIf_comCtrl : (s.linkIf link).comCtrl = s.comCtrl := by cases link <;> simp [State.linkIf]
@[simp] theorem linkIf_uart : (s.linkIf link).uart = s.uart := by cases link <;> simp [State.linkIf]
@[simp] theorem linkIf_spi : (s.linkIf link).spi = s.spi := by cases link <;> simp [State.linkIf]
@[simp] theorem linkIf_pio : (s.linkIf link).pio = s.pio := by cases link <;> simp [State.linkIf]
@[simp] theorem linkIf_wb : (s.linkIf link).wb = s.wb := by cases link <;> simp [State.linkIf]
@[simp] theorem linkIf_ram : (s.linkIf link).ram = s.ram := by cases link <;> simp [State.linkIf]
@[simp] theorem linkIf_rom : (s.linkIf link).rom = s.rom := by cases link <;> simp [State.linkIf]
@[simp] theorem linkIf_pins : (s.linkIf link).pins = s.pins := by cases link <;> simp [State.linkIf]
@[simp] theorem linkIf_seen : (s.linkIf link).seen = s.seen := by cases link <;> simp [State.linkIf]
@[simp] theorem linkIf_boundary : (s.linkIf link).boundary = s.boundary := by cases link <;> simp [State.linkIf]
@[simp] theorem linkIf_script : (s.linkIf link).script = s.script := by cases link <;> simp [State.linkIf]
@[simp] theorem linkIf_record : (s.linkIf link).record = s.record := by cases link <;> simp [State.linkIf]
@[simp] theorem linkIf_draws : (s.linkIf link).draws = s.draws := by cases link <;> simp [State.linkIf]
@[simp] theorem linkIf_params : (s.linkIf link).params = s.params := by cases link <;> simp [State.linkIf]
end linkIf

section writeBack
variable (s : State) (ix : Indexing) (ra : Reg) (w : Word)
@[simp] theorem writeBack_pc : (s.writeBack ix ra w).pc = s.pc := by unfold State.writeBack; split <;> simp
@[simp] theorem writeBack_msr : (s.writeBack ix ra w).msr = s.msr := by unfold State.writeBack; split <;> simp
@[simp] theorem writeBack_sleeping : (s.writeBack ix ra w).sleeping = s.sleeping := by unfold State.writeBack; split <;> simp
@[simp] theorem writeBack_mmu : (s.writeBack ix ra w).mmu = s.mmu := by unfold State.writeBack; split <;> simp
@[simp] theorem writeBack_irq : (s.writeBack ix ra w).irq = s.irq := by unfold State.writeBack; split <;> simp
@[simp] theorem writeBack_timer : (s.writeBack ix ra w).timer = s.timer := by unfold State.writeBack; split <;> simp
@[simp] theorem writeBack_lfsr : (s.writeBack ix ra w).lfsr = s.lfsr := by unfold State.writeBack; split <;> simp
@[simp] theorem writeBack_comCtrl : (s.writeBack ix ra w).comCtrl = s.comCtrl := by unfold State.writeBack; split <;> simp
@[simp] theorem writeBack_uart : (s.writeBack ix ra w).uart = s.uart := by unfold State.writeBack; split <;> simp
@[simp] theorem writeBack_spi : (s.writeBack ix ra w).spi = s.spi := by unfold State.writeBack; split <;> simp
@[simp] theorem writeBack_pio : (s.writeBack ix ra w).pio = s.pio := by unfold State.writeBack; split <;> simp
@[simp] theorem writeBack_wb : (s.writeBack ix ra w).wb = s.wb := by unfold State.writeBack; split <;> simp
@[simp] theorem writeBack_ram : (s.writeBack ix ra w).ram = s.ram := by unfold State.writeBack; split <;> simp
@[simp] theorem writeBack_rom : (s.writeBack ix ra w).rom = s.rom := by unfold State.writeBack; split <;> simp
@[simp] theorem writeBack_pins : (s.writeBack ix ra w).pins = s.pins := by unfold State.writeBack; split <;> simp
@[simp] theorem writeBack_seen : (s.writeBack ix ra w).seen = s.seen := by unfold State.writeBack; split <;> simp
@[simp] theorem writeBack_boundary : (s.writeBack ix ra w).boundary = s.boundary := by unfold State.writeBack; split <;> simp
@[simp] theorem writeBack_script : (s.writeBack ix ra w).script = s.script := by unfold State.writeBack; split <;> simp
@[simp] theorem writeBack_record : (s.writeBack ix ra w).record = s.record := by unfold State.writeBack; split <;> simp
@[simp] theorem writeBack_draws : (s.writeBack ix ra w).draws = s.draws := by unfold State.writeBack; split <;> simp
@[simp] theorem writeBack_params : (s.writeBack ix ra w).params = s.params := by unfold State.writeBack; split <;> simp
end writeBack

section drawn
variable (s : State)
@[simp] theorem drawn_pc : s.drawn.pc = s.pc := rfl
@[simp] theorem drawn_msr : s.drawn.msr = s.msr := rfl
@[simp] theorem drawn_usr : s.drawn.usr = s.usr := rfl
@[simp] theorem drawn_sys : s.drawn.sys = s.sys := rfl
@[simp] theorem drawn_sleeping : s.drawn.sleeping = s.sleeping := rfl
@[simp] theorem drawn_mmu : s.drawn.mmu = s.mmu := rfl
@[simp] theorem drawn_irq : s.drawn.irq = s.irq := rfl
@[simp] theorem drawn_timer : s.drawn.timer = s.timer := rfl
@[simp] theorem drawn_lfsr : s.drawn.lfsr = s.lfsr := rfl
@[simp] theorem drawn_comCtrl : s.drawn.comCtrl = s.comCtrl := rfl
@[simp] theorem drawn_uart : s.drawn.uart = s.uart := rfl
@[simp] theorem drawn_spi : s.drawn.spi = s.spi := rfl
@[simp] theorem drawn_pio : s.drawn.pio = s.pio := rfl
@[simp] theorem drawn_wb : s.drawn.wb = s.wb := rfl
@[simp] theorem drawn_ram : s.drawn.ram = s.ram := rfl
@[simp] theorem drawn_rom : s.drawn.rom = s.rom := rfl
@[simp] theorem drawn_pins : s.drawn.pins = s.pins := rfl
@[simp] theorem drawn_seen : s.drawn.seen = s.seen := rfl
@[simp] theorem drawn_boundary : s.drawn.boundary = s.boundary := rfl
@[simp] theorem drawn_script : s.drawn.script = s.script := rfl
@[simp] theorem drawn_record : s.drawn.record = s.record := rfl
@[simp] theorem drawn_params : s.drawn.params = s.params := rfl
end drawn

section emit
variable (s : State) (o : HostOutput)
@[simp] theorem emit_pc : (s.emit o).pc = s.pc := rfl
@[simp] theorem emit_msr : (s.emit o).msr = s.msr := rfl
@[simp] theorem emit_usr : (s.emit o).usr = s.usr := rfl
@[simp] theorem emit_sys : (s.emit o).sys = s.sys := rfl
@[simp] theorem emit_sleeping : (s.emit o).sleeping = s.sleeping := rfl
@[simp] theorem emit_mmu : (s.emit o).mmu = s.mmu := rfl
@[simp] theorem emit_irq : (s.emit o).irq = s.irq := rfl
@[simp] theorem emit_timer : (s.emit o).timer = s.timer := rfl
@[simp] theorem emit_lfsr : (s.emit o).lfsr = s.lfsr := rfl
@[simp] theorem emit_comCtrl : (s.emit o).comCtrl = s.comCtrl := rfl
@[simp] theorem emit_uart : (s.emit o).uart = s.uart := rfl
@[simp] theorem emit_spi : (s.emit o).spi = s.spi := rfl
@[simp] theorem emit_pio : (s.emit o).pio = s.pio := rfl
@[simp] theorem emit_wb : (s.emit o).wb = s.wb := rfl
@[simp] theorem emit_ram : (s.emit o).ram = s.ram := rfl
@[simp] theorem emit_rom : (s.emit o).rom = s.rom := rfl
@[simp] theorem emit_pins : (s.emit o).pins = s.pins := rfl
@[simp] theorem emit_seen : (s.emit o).seen = s.seen := rfl
@[simp] theorem emit_boundary : (s.emit o).boundary = s.boundary := rfl
@[simp] theorem emit_script : (s.emit o).script = s.script := rfl
@[simp] theorem emit_draws : (s.emit o).draws = s.draws := rfl
@[simp] theorem emit_params : (s.emit o).params = s.params := rfl
end emit

section pulse
variable (s : State) (ch : Nat)
@[simp] theorem pulse_pc : (s.pulse ch).pc = s.pc := rfl
@[simp] theorem pulse_msr : (s.pulse ch).msr = s.msr := rfl
@[simp] theorem pulse_usr : (s.pulse ch).usr = s.usr := rfl
@[simp] theorem pulse_sys : (s.pulse ch).sys = s.sys := rfl
@[simp] theorem pulse_sleeping : (s.pulse ch).sleeping = s.sleeping := rfl
@[simp] theorem pulse_mmu : (s.pulse ch).mmu = s.mmu := rfl
@[simp] theorem pulse_timer : (s.pulse ch).timer = s.timer := rfl
@[simp] theorem pulse_lfsr : (s.pulse ch).lfsr = s.lfsr := rfl
@[simp] theorem pulse_comCtrl : (s.pulse ch).comCtrl = s.comCtrl := rfl
@[simp] theorem pulse_uart : (s.pulse ch).uart = s.uart := rfl
@[simp] theorem pulse_spi : (s.pulse ch).spi = s.spi := rfl
@[simp] theorem pulse_pio : (s.pulse ch).pio = s.pio := rfl
@[simp] theorem pulse_wb : (s.pulse ch).wb = s.wb := rfl
@[simp] theorem pulse_ram : (s.pulse ch).ram = s.ram := rfl
@[simp] theorem pulse_rom : (s.pulse ch).rom = s.rom := rfl
@[simp] theorem pulse_pins : (s.pulse ch).pins = s.pins := rfl
@[simp] theorem pulse_seen : (s.pulse ch).seen = s.seen := rfl
@[simp] theorem pulse_boundary : (s.pulse ch).boundary = s.boundary := rfl
@[simp] theorem pulse_script : (s.pulse ch).script = s.script := rfl
@[simp] theorem pulse_record : (s.pulse ch).record = s.record := rfl
@[simp] theorem pulse_draws : (s.pulse ch).draws = s.draws := rfl
@[simp] theorem pulse_params : (s.pulse ch).params = s.params := rfl
end pulse

section setWishbone
variable (s : State) (w : Wishbone)
@[simp] theorem setWishbone_pc : (s.setWishbone w).pc = s.pc := rfl
@[simp] theorem setWishbone_msr : (s.setWishbone w).msr = s.msr := rfl
@[simp] theorem setWishbone_usr : (s.setWishbone w).usr = s.usr := rfl
@[simp] theorem setWishbone_sys : (s.setWishbone w).sys = s.sys := rfl
@[simp] theorem setWishbone_sleeping : (s.setWishbone w).sleeping = s.sleeping := rfl
@[simp] theorem setWishbone_mmu : (s.setWishbone w).mmu = s.mmu := rfl
@[simp] theorem setWishbone_timer : (s.setWishbone w).timer = s.timer := rfl
@[simp] theorem setWishbone_lfsr : (s.setWishbone w).lfsr = s.lfsr := rfl
@[simp] theorem setWishbone_comCtrl : (s.setWishbone w).comCtrl = s.comCtrl := rfl
@[simp] theorem setWishbone_uart : (s.setWishbone w).uart = s.uart := rfl
@[simp] theorem setWishbone_spi : (s.setWishbone w).spi = s.spi := rfl
@[simp] theorem setWishbone_pio : (s.setWishbone w).pio = s.pio := rfl
@[simp] theorem setWishbone_ram : (s.setWishbone w).ram = s.ram := rfl
@[simp] theorem setWishbone_rom : (s.setWishbone w).rom = s.rom := rfl
@[simp] theorem setWishbone_pins : (s.setWishbone w).pins = s.pins := rfl
@[simp] theorem setWishbone_seen : (s.setWishbone w).seen = s.seen := rfl
@[simp] theorem setWishbone_boundary : (s.setWishbone w).boundary = s.boundary := rfl
@[simp] theorem setWishbone_script : (s.setWishbone w).script = s.script := rfl
@[simp] theorem setWishbone_record : (s.setWishbone w).record = s.record := rfl
@[simp] theorem setWishbone_draws : (s.setWishbone w).draws = s.draws := rfl
@[simp] theorem setWishbone_params : (s.setWishbone w).params = s.params := rfl
end setWishbone

section beginInstruction
variable (s : State) (i : Instr)
@[simp] theorem beginInstruction_pc : (s.beginInstruction i).pc = s.pc := rfl
@[simp] theorem beginInstruction_msr : (s.beginInstruction i).msr = s.msr := rfl
@[simp] theorem beginInstruction_usr : (s.beginInstruction i).usr = s.usr := rfl
@[simp] theorem beginInstruction_sys : (s.beginInstruction i).sys = s.sys := rfl
@[simp] theorem beginInstruction_sleeping : (s.beginInstruction i).sleeping = s.sleeping := rfl
@[simp] theorem beginInstruction_irq : (s.beginInstruction i).irq = s.irq := rfl
@[simp] theorem beginInstruction_timer : (s.beginInstruction i).timer = s.timer := rfl
@[simp] theorem beginInstruction_lfsr : (s.beginInstruction i).lfsr = s.lfsr := rfl
@[simp] theorem beginInstruction_comCtrl : (s.beginInstruction i).comCtrl = s.comCtrl := rfl
@[simp] theorem beginInstruction_uart : (s.beginInstruction i).uart = s.uart := rfl
@[simp] theorem beginInstruction_spi : (s.beginInstruction i).spi = s.spi := rfl
@[simp] theorem beginInstruction_pio : (s.beginInstruction i).pio = s.pio := rfl
@[simp] theorem beginInstruction_wb : (s.beginInstruction i).wb = s.wb := rfl
@[simp] theorem beginInstruction_ram : (s.beginInstruction i).ram = s.ram := rfl
@[simp] theorem beginInstruction_rom : (s.beginInstruction i).rom = s.rom := rfl
@[simp] theorem beginInstruction_pins : (s.beginInstruction i).pins = s.pins := rfl
@[simp] theorem beginInstruction_seen : (s.beginInstruction i).seen = s.seen := rfl
@[simp] theorem beginInstruction_script : (s.beginInstruction i).script = s.script := rfl
@[simp] theorem beginInstruction_record : (s.beginInstruction i).record = s.record := rfl
@[simp] theorem beginInstruction_draws : (s.beginInstruction i).draws = s.draws := rfl
@[simp] theorem beginInstruction_params : (s.beginInstruction i).params = s.params := rfl
end beginInstruction

section timerCycle
variable (s : State)
@[simp] theorem timerCycle_pc : s.timerCycle.pc = s.pc := by unfold State.timerCycle; split <;> rfl
@[simp] theorem timerCycle_msr : s.timerCycle.msr = s.msr := by unfold State.timerCycle; split <;> rfl
@[simp] theorem timerCycle_usr : s.timerCycle.usr = s.usr := by unfold State.timerCycle; split <;> rfl
@[simp] theorem timerCycle_sys : s.timerCycle.sys = s.sys := by unfold State.timerCycle; split <;> rfl
@[simp] theorem timerCycle_sleeping : s.timerCycle.sleeping = s.sleeping := by unfold State.timerCycle; split <;> rfl
@[simp] theorem timerCycle_mmu : s.timerCycle.mmu = s.mmu := by unfold State.timerCycle; split <;> rfl
@[simp] theorem timerCycle_lfsr : s.timerCycle.lfsr = s.lfsr := by unfold State.timerCycle; split <;> rfl
@[simp] theorem timerCycle_comCtrl : s.timerCycle.comCtrl = s.comCtrl := by unfold State.timerCycle; split <;> rfl
@[simp] theorem timerCycle_uart : s.timerCycle.uart = s.uart := by unfold State.timerCycle; split <;> rfl
@[simp] theorem timerCycle_spi : s.timerCycle.spi = s.spi := by unfold State.timerCycle; split <;> rfl
@[simp] theorem timerCycle_pio : s.timerCycle.pio = s.pio := by unfold State.timerCycle; split <;> rfl
@[simp] theorem timerCycle_wb : s.timerCycle.wb = s.wb := by unfold State.timerCycle; split <;> rfl
@[simp] theorem timerCycle_ram : s.timerCycle.ram = s.ram := by unfold State.timerCycle; split <;> rfl
@[simp] theorem timerCycle_rom : s.timerCycle.rom = s.rom := by unfold State.timerCycle; split <;> rfl
@[simp] theorem timerCycle_pins : s.timerCycle.pins = s.pins := by unfold State.timerCycle; split <;> rfl
@[simp] theorem timerCycle_seen : s.timerCycle.seen = s.seen := by unfold State.timerCycle; split <;> rfl
@[simp] theorem timerCycle_boundary : s.timerCycle.boundary = s.boundary := by unfold State.timerCycle; split <;> rfl
@[simp] theorem timerCycle_script : s.timerCycle.script = s.script := by unfold State.timerCycle; split <;> rfl
@[simp] theorem timerCycle_record : s.timerCycle.record = s.record := by unfold State.timerCycle; split <;> rfl
@[simp] theorem timerCycle_draws : s.timerCycle.draws = s.draws := by unfold State.timerCycle; split <;> rfl
@[simp] theorem timerCycle_params : s.timerCycle.params = s.params := by unfold State.timerCycle; split <;> rfl
end timerCycle

section sampleLevels
variable (s : State)
@[simp] theorem sampleLevels_pc : s.sampleLevels.pc = s.pc := rfl
@[simp] theorem sampleLevels_msr : s.sampleLevels.msr = s.msr := rfl
@[simp] theorem sampleLevels_usr : s.sampleLevels.usr = s.usr := rfl
@[simp] theorem sampleLevels_sys : s.sampleLevels.sys = s.sys := rfl
@[simp] theorem sampleLevels_sleeping : s.sampleLevels.sleeping = s.sleeping := rfl
@[simp] theorem sampleLevels_mmu : s.sampleLevels.mmu = s.mmu := rfl
@[simp] theorem sampleLevels_timer : s.sampleLevels.timer = s.timer := rfl
@[simp] theorem sampleLevels_lfsr : s.sampleLevels.lfsr = s.lfsr := rfl
@[simp] theorem sampleLevels_comCtrl : s.sampleLevels.comCtrl = s.comCtrl := rfl
@[simp] theorem sampleLevels_uart : s.sampleLevels.uart = s.uart := rfl
@[simp] theorem sampleLevels_spi : s.sampleLevels.spi = s.spi := rfl
@[simp] theorem sampleLevels_pio : s.sampleLevels.pio = s.pio := rfl
@[simp] theorem sampleLevels_wb : s.sampleLevels.wb = s.wb := rfl
@[simp] theorem sampleLevels_ram : s.sampleLevels.ram = s.ram := rfl
@[simp] theorem sampleLevels_rom : s.sampleLevels.rom = s.rom := rfl
@[simp] theorem sampleLevels_pins : s.sampleLevels.pins = s.pins := rfl
@[simp] theorem sampleLevels_seen : s.sampleLevels.seen = s.seen := rfl
@[simp] theorem sampleLevels_boundary : s.sampleLevels.boundary = s.boundary := rfl
@[simp] theorem sampleLevels_script : s.sampleLevels.script = s.script := rfl
@[simp] theorem sampleLevels_record : s.sampleLevels.record = s.record := rfl
@[simp] theorem sampleLevels_draws : s.sampleLevels.draws = s.draws := rfl
@[simp] theorem sampleLevels_params : s.sampleLevels.params = s.params := rfl
end sampleLevels

section clockCycle
variable (s : State)
@[simp] theorem clockCycle_pc : s.clockCycle.pc = s.pc := by simp [State.clockCycle]
@[simp] theorem clockCycle_msr : s.clockCycle.msr = s.msr := by simp [State.clockCycle]
@[simp] theorem clockCycle_usr : s.clockCycle.usr = s.usr := by simp [State.clockCycle]
@[simp] theorem clockCycle_sys : s.clockCycle.sys = s.sys := by simp [State.clockCycle]
@[simp] theorem clockCycle_sleeping : s.clockCycle.sleeping = s.sleeping := by simp [State.clockCycle]
@[simp] theorem clockCycle_mmu : s.clockCycle.mmu = s.mmu := by simp [State.clockCycle]
@[simp] theorem clockCycle_lfsr : s.clockCycle.lfsr = s.lfsr := by simp [State.clockCycle]
@[simp] theorem clockCycle_comCtrl : s.clockCycle.comCtrl = s.comCtrl := by simp [State.clockCycle]
@[simp] theorem clockCycle_uart : s.clockCycle.uart = s.uart := by simp [State.clockCycle]
@[simp] theorem clockCycle_spi : s.clockCycle.spi = s.spi := by simp [State.clockCycle]
@[simp] theorem clockCycle_pio : s.clockCycle.pio = s.pio := by simp [State.clockCycle]
@[simp] theorem clockCycle_wb : s.clockCycle.wb = s.wb := by simp [State.clockCycle]
@[simp] theorem clockCycle_ram : s.clockCycle.ram = s.ram := by simp [State.clockCycle]
@[simp] theorem clockCycle_rom : s.clockCycle.rom = s.rom := by simp [State.clockCycle]
@[simp] theorem clockCycle_pins : s.clockCycle.pins = s.pins := by simp [State.clockCycle]
@[simp] theorem clockCycle_seen : s.clockCycle.seen = s.seen := by simp [State.clockCycle]
@[simp] theorem clockCycle_boundary : s.clockCycle.boundary = s.boundary := by simp [State.clockCycle]
@[simp] theorem clockCycle_script : s.clockCycle.script = s.script := by simp [State.clockCycle]
@[simp] theorem clockCycle_record : s.clockCycle.record = s.record := by simp [State.clockCycle]
@[simp] theorem clockCycle_draws : s.clockCycle.draws = s.draws := by simp [State.clockCycle]
@[simp] theorem clockCycle_params : s.clockCycle.params = s.params := by simp [State.clockCycle]
end clockCycle

section showPins
variable (s t : State)
@[simp] theorem showPins_pc : (s.showPins t).pc = t.pc := rfl
@[simp] theorem showPins_msr : (s.showPins t).msr = t.msr := rfl
@[simp] theorem showPins_usr : (s.showPins t).usr = t.usr := rfl
@[simp] theorem showPins_sys : (s.showPins t).sys = t.sys := rfl
@[simp] theorem showPins_sleeping : (s.showPins t).sleeping = t.sleeping := rfl
@[simp] theorem showPins_mmu : (s.showPins t).mmu = t.mmu := rfl
@[simp] theorem showPins_irq : (s.showPins t).irq = t.irq := rfl
@[simp] theorem showPins_timer : (s.showPins t).timer = t.timer := rfl
@[simp] theorem showPins_lfsr : (s.showPins t).lfsr = t.lfsr := rfl
@[simp] theorem showPins_comCtrl : (s.showPins t).comCtrl = t.comCtrl := rfl
@[simp] theorem showPins_uart : (s.showPins t).uart = t.uart := rfl
@[simp] theorem showPins_spi : (s.showPins t).spi = t.spi := rfl
@[simp] theorem showPins_pio : (s.showPins t).pio = t.pio := rfl
@[simp] theorem showPins_wb : (s.showPins t).wb = t.wb := rfl
@[simp] theorem showPins_ram : (s.showPins t).ram = t.ram := rfl
@[simp] theorem showPins_rom : (s.showPins t).rom = t.rom := rfl
@[simp] theorem showPins_pins : (s.showPins t).pins = t.pins := rfl
@[simp] theorem showPins_seen : (s.showPins t).seen = t.seen := rfl
@[simp] theorem showPins_boundary : (s.showPins t).boundary = t.boundary := rfl
@[simp] theorem showPins_script : (s.showPins t).script = t.script := rfl
@[simp] theorem showPins_draws : (s.showPins t).draws = t.draws := rfl
@[simp] theorem showPins_params : (s.showPins t).params = t.params := rfl
end showPins

section fallAsleep
variable (s : State)
@[simp] theorem fallAsleep_sleeping : s.fallAsleep.sleeping = true := rfl
@[simp] theorem fallAsleep_pc : s.fallAsleep.pc = s.pc := rfl
@[simp] theorem fallAsleep_msr : s.fallAsleep.msr = s.msr := rfl
@[simp] theorem fallAsleep_usr : s.fallAsleep.usr = s.usr := rfl
@[simp] theorem fallAsleep_sys : s.fallAsleep.sys = s.sys := rfl
@[simp] theorem fallAsleep_mmu : s.fallAsleep.mmu = s.mmu := rfl
@[simp] theorem fallAsleep_irq : s.fallAsleep.irq = s.irq := rfl
@[simp] theorem fallAsleep_timer : s.fallAsleep.timer = s.timer := rfl
@[simp] theorem fallAsleep_lfsr : s.fallAsleep.lfsr = s.lfsr := rfl
@[simp] theorem fallAsleep_comCtrl : s.fallAsleep.comCtrl = s.comCtrl := rfl
@[simp] theorem fallAsleep_uart : s.fallAsleep.uart = s.uart := rfl
@[simp] theorem fallAsleep_spi : s.fallAsleep.spi = s.spi := rfl
@[simp] theorem fallAsleep_pio : s.fallAsleep.pio = s.pio := rfl
@[simp] theorem fallAsleep_wb : s.fallAsleep.wb = s.wb := rfl
@[simp] theorem fallAsleep_ram : s.fallAsleep.ram = s.ram := rfl
@[simp] theorem fallAsleep_rom : s.fallAsleep.rom = s.rom := rfl
@[simp] theorem fallAsleep_pins : s.fallAsleep.pins = s.pins := rfl
@[simp] theorem fallAsleep_seen : s.fallAsleep.seen = s.seen := rfl
@[simp] theorem fallAsleep_boundary : s.fallAsleep.boundary = s.boundary := rfl
@[simp] theorem fallAsleep_script : s.fallAsleep.script = s.script := rfl
@[simp] theorem fallAsleep_record : s.fallAsleep.record = s.record := rfl
@[simp] theorem fallAsleep_draws : s.fallAsleep.draws = s.draws := rfl
@[simp] theorem fallAsleep_params : s.fallAsleep.params = s.params := rfl
end fallAsleep

section wakeUp
variable (s : State)
@[simp] theorem wakeUp_usr : s.wakeUp.usr = s.usr := by
  unfold State.wakeUp; repeat' split
  all_goals rfl
@[simp] theorem wakeUp_irq : s.wakeUp.irq = s.irq := by
  unfold State.wakeUp; repeat' split
  all_goals rfl
@[simp] theorem wakeUp_timer : s.wakeUp.timer = s.timer := by
  unfold State.wakeUp; repeat' split
  all_goals rfl
@[simp] theorem wakeUp_lfsr : s.wakeUp.lfsr = s.lfsr := by
  unfold State.wakeUp; repeat' split
  all_goals rfl
@[simp] theorem wakeUp_comCtrl : s.wakeUp.comCtrl = s.comCtrl := by
  unfold State.wakeUp; repeat' split
  all_goals rfl
@[simp] theorem wakeUp_uart : s.wakeUp.uart = s.uart := by
  unfold State.wakeUp; repeat' split
  all_goals rfl
@[simp] theorem wakeUp_spi : s.wakeUp.spi = s.spi := by
  unfold State.wakeUp; repeat' split
  all_goals rfl
@[simp] theorem wakeUp_pio : s.wakeUp.pio = s.pio := by
  unfold State.wakeUp; repeat' split
  all_goals rfl
@[simp] theorem wakeUp_wb : s.wakeUp.wb = s.wb := by
  unfold State.wakeUp; repeat' split
  all_goals rfl
@[simp] theorem wakeUp_ram : s.wakeUp.ram = s.ram := by
  unfold State.wakeUp; repeat' split
  all_goals rfl
@[simp] theorem wakeUp_rom : s.wakeUp.rom = s.rom := by
  unfold State.wakeUp; repeat' split
  all_goals rfl
@[simp] theorem wakeUp_pins : s.wakeUp.pins = s.pins := by
  unfold State.wakeUp; repeat' split
  all_goals rfl
@[simp] theorem wakeUp_seen : s.wakeUp.seen = s.seen := by
  unfold State.wakeUp; repeat' split
  all_goals rfl
@[simp] theorem wakeUp_boundary : s.wakeUp.boundary = s.boundary := by
  unfold State.wakeUp; repeat' split
  all_goals rfl
@[simp] theorem wakeUp_script : s.wakeUp.script = s.script := by
  unfold State.wakeUp; repeat' split
  all_goals rfl
@[simp] theorem wakeUp_record : s.wakeUp.record = s.record := by
  unfold State.wakeUp; repeat' split
  all_goals rfl
@[simp] theorem wakeUp_draws : s.wakeUp.draws = s.draws := by
  unfold State.wakeUp; repeat' split
  all_goals rfl
@[simp] theorem wakeUp_params : s.wakeUp.params = s.params := by
  unfold State.wakeUp; repeat' split
  all_goals rfl
end wakeUp

/-- A data access takes nothing from the state but a draw. -/
theorem dataPage_snd_eq (s : State) : ∃ d, s.dataPage.2 = { s with draws := d } := by
  unfold State.dataPage
  split
  · split <;> exact ⟨_, rfl⟩
  · exact ⟨_, rfl⟩

section dataPage_snd
variable (s : State)
@[simp] theorem dataPage_snd_pc : s.dataPage.2.pc = s.pc := by
  obtain ⟨d, h⟩ := dataPage_snd_eq s; rw [h]
@[simp] theorem dataPage_snd_msr : s.dataPage.2.msr = s.msr := by
  obtain ⟨d, h⟩ := dataPage_snd_eq s; rw [h]
@[simp] theorem dataPage_snd_usr : s.dataPage.2.usr = s.usr := by
  obtain ⟨d, h⟩ := dataPage_snd_eq s; rw [h]
@[simp] theorem dataPage_snd_sys : s.dataPage.2.sys = s.sys := by
  obtain ⟨d, h⟩ := dataPage_snd_eq s; rw [h]
@[simp] theorem dataPage_snd_sleeping : s.dataPage.2.sleeping = s.sleeping := by
  obtain ⟨d, h⟩ := dataPage_snd_eq s; rw [h]
@[simp] theorem dataPage_snd_mmu : s.dataPage.2.mmu = s.mmu := by
  obtain ⟨d, h⟩ := dataPage_snd_eq s; rw [h]
@[simp] theorem dataPage_snd_irq : s.dataPage.2.irq = s.irq := by
  obtain ⟨d, h⟩ := dataPage_snd_eq s; rw [h]
@[simp] theorem dataPage_snd_timer : s.dataPage.2.timer = s.timer := by
  obtain ⟨d, h⟩ := dataPage_snd_eq s; rw [h]
@[simp] theorem dataPage_snd_lfsr : s.dataPage.2.lfsr = s.lfsr := by
  obtain ⟨d, h⟩ := dataPage_snd_eq s; rw [h]
@[simp] theorem dataPage_snd_comCtrl : s.dataPage.2.comCtrl = s.comCtrl := by
  obtain ⟨d, h⟩ := dataPage_snd_eq s; rw [h]
@[simp] theorem dataPage_snd_uart : s.dataPage.2.uart = s.uart := by
  obtain ⟨d, h⟩ := dataPage_snd_eq s; rw [h]
@[simp] theorem dataPage_snd_spi : s.dataPage.2.spi = s.spi := by
  obtain ⟨d, h⟩ := dataPage_snd_eq s; rw [h]
@[simp] theorem dataPage_snd_pio : s.dataPage.2.pio = s.pio := by
  obtain ⟨d, h⟩ := dataPage_snd_eq s; rw [h]
@[simp] theorem dataPage_snd_wb : s.dataPage.2.wb = s.wb := by
  obtain ⟨d, h⟩ := dataPage_snd_eq s; rw [h]
@[simp] theorem dataPage_snd_ram : s.dataPage.2.ram = s.ram := by
  obtain ⟨d, h⟩ := dataPage_snd_eq s; rw [h]
@[simp] theorem dataPage_snd_rom : s.dataPage.2.rom = s.rom := by
  obtain ⟨d, h⟩ := dataPage_snd_eq s; rw [h]
@[simp] theorem dataPage_snd_pins : s.dataPage.2.pins = s.pins := by
  obtain ⟨d, h⟩ := dataPage_snd_eq s; rw [h]
@[simp] theorem dataPage_snd_seen : s.dataPage.2.seen = s.seen := by
  obtain ⟨d, h⟩ := dataPage_snd_eq s; rw [h]
@[simp] theorem dataPage_snd_boundary : s.dataPage.2.boundary = s.boundary := by
  obtain ⟨d, h⟩ := dataPage_snd_eq s; rw [h]
@[simp] theorem dataPage_snd_script : s.dataPage.2.script = s.script := by
  obtain ⟨d, h⟩ := dataPage_snd_eq s; rw [h]
@[simp] theorem dataPage_snd_record : s.dataPage.2.record = s.record := by
  obtain ⟨d, h⟩ := dataPage_snd_eq s; rw [h]
@[simp] theorem dataPage_snd_params : s.dataPage.2.params = s.params := by
  obtain ⟨d, h⟩ := dataPage_snd_eq s; rw [h]
end dataPage_snd

@[simp] theorem setPc_pc (s : State) (w : Word) : (s.setPc w).pc = w := rfl
@[simp] theorem advance_pc (s : State) : s.advance.pc = s.pc + 2 := rfl
@[simp] theorem setFlag_msr (s : State) (k : Flag) (v : Bool) :
    (s.setFlag k v).msr = setBit s.msr (flagBase s.inSystem + k.offset) v := rfl
@[simp] theorem setAluFlags_msr (s : State) (f : AluFlags) :
    (s.setAluFlags f).msr = msrWithAlu s.msr (flagBase s.inSystem) f := rfl
@[simp] theorem enterTrap_pc (s : State) (t : Trap) (link : Word) : (s.enterTrap t link).pc = t.vector := rfl
@[simp] theorem enterTrap_msr (s : State) (t : Trap) (link : Word) : (s.enterTrap t link).msr = trapMsr s.msr := rfl
@[simp] theorem enterTrap_sys (s : State) (t : Trap) (link : Word) :
    (s.enterTrap t link).sys = s.sys.set .r7 link := rfl
@[simp] theorem enterTrap_mmu (s : State) (t : Trap) (link : Word) : (s.enterTrap t link).mmu = s.trapMmu := rfl
@[simp] theorem enterTrap_sleeping (s : State) (t : Trap) (link : Word) : (s.enterTrap t link).sleeping = false := rfl
@[simp] theorem drawn_draws (s : State) : s.drawn.draws = s.draws + 1 := rfl
@[simp] theorem emit_record (s : State) (o : HostOutput) : (s.emit o).record = s.record ++ [o] := rfl
@[simp] theorem pulse_irq (s : State) (ch : Nat) : (s.pulse ch).irq = s.irq.pulse ch := rfl
@[simp] theorem setWishbone_wb (s : State) (w : Wishbone) : (s.setWishbone w).wb = w := rfl
@[simp] theorem beginInstruction_boundary (s : State) (i : Instr) :
    (s.beginInstruction i).boundary = s.boundaryAfter i := rfl
@[simp] theorem beginInstruction_mmu (s : State) (i : Instr) :
    (s.beginInstruction i).mmu = { s.mmu with iOld := none, dOld := ageWindow s.mmu.dOld } := rfl

/-! ## Banks -/

@[simp] theorem bank_get_set (b : Bank) (r q : Reg) (w : Word) : (b.set r w).get q = if q = r then w else b.get q := by
  cases r <;> cases q <;> rfl

/-! ## The current bank and mode -/

theorem inSystem_of_msr {s t : State} (h : t.msr = s.msr) : t.inSystem = s.inSystem := by
  simp [State.inSystem, h]

@[simp] theorem setReg_inSystem (s : State) (r : Reg) (w : Word) : (s.setReg r w).inSystem = s.inSystem :=
  inSystem_of_msr (setReg_msr s r w)

@[simp] theorem setReg_sys (s : State) (r : Reg) (w : Word) :
    (s.setReg r w).sys = if s.inSystem then s.sys.set r w else s.sys := by
  unfold State.setReg; split <;> rfl

@[simp] theorem setReg_usr (s : State) (r : Reg) (w : Word) :
    (s.setReg r w).usr = if s.inSystem then s.usr else s.usr.set r w := by
  unfold State.setReg; split <;> rfl

/-- Reading a register of the current bank after a write of one (spec/10_state.md R11, R13). -/
@[simp] theorem reg_setReg (s : State) (r q : Reg) (w : Word) :
    (s.setReg r w).reg q = if q = r then w else s.reg q := by
  unfold State.reg
  cases h : s.inSystem <;> simp [h]

end Sys2Proof.Laws
end

