-- ==== Sys2Proof/Laws/Ops.lean ====
section
/-! SUPPORT. One lemma for each shared operation that says everything it can do. -/

namespace Sys2Proof.Laws

open Sys2Proof.Machine

/-! ## Bits -/

/-- A bit of a word in which one bit was set. -/
@[simp] theorem getLsbD_setBit (w : Word) (i j : Nat) (v : Bool) :
    (setBit w i v).getLsbD j = if j = i then decide (j < 16) && v else w.getLsbD j := by
  unfold setBit
  by_cases hj : j < 16
  · cases v <;> simp [hj] <;> by_cases e : j = i <;> simp [e] <;> omega
  · have h : w.getLsbD j = false := BitVec.getLsbD_of_ge w j (by omega)
    cases v <;> simp [hj, h]

/-- A bit of a merge. -/
@[simp] theorem getLsbD_mergeBits (old new mask : Word) (j : Nat) :
    (mergeBits old new mask).getLsbD j = if mask.getLsbD j then new.getLsbD j else old.getLsbD j := by
  unfold mergeBits
  by_cases hj : j < 16
  · cases h : mask.getLsbD j <;> simp [hj, h, -BitVec.getLsbD_eq_getElem]
  · simp [BitVec.getLsbD_of_ge _ _ (Nat.le_of_not_lt hj)]

/-- The parts of the MSR (R176). -/
theorem partMask_getLsbD (p : MsrPart) (j : Nat) :
    (partMask p).getLsbD j = match p with
      | .all => decide (j < 16)
      | .aluFlags => decide (j < 10)
      | .sysFlags => decide (5 ≤ j ∧ j < 10)
      | .usrFlags => decide (j < 5) := by
  by_cases hj : j < 16
  · cases p <;> (revert hj; revert j; decide)
  · rw [BitVec.getLsbD_of_ge _ _ (Nat.le_of_not_lt hj)]
    cases p <;> simp <;> omega

/-- `v[15:1] & 0` (R14). -/
@[simp] theorem clearBit0_getLsbD (v : Word) (j : Nat) : (clearBit0 v).getLsbD j = (decide (j ≠ 0) && v.getLsbD j) := by
  unfold clearBit0
  by_cases hj : j < 16
  · rw [BitVec.getLsbD_and]
    have : ∀ j, j < 16 → (0xFFFE#16).getLsbD j = decide (j ≠ 0) := by decide
    rw [this j hj, Bool.and_comm]
  · simp [BitVec.getLsbD_of_ge _ _ (Nat.le_of_not_lt hj)]

/-- An even number plus 2 is even. -/
theorem even_add_two {w : Word} (h : w.getLsbD 0 = false) : (w + 2).getLsbD 0 = false := by
  simpa [BitVec.getLsbD, BitVec.toNat_add] using h

/-! ## The MSR -/

/-- A bit of the MSR with the four arithmetic flags of a set written. -/
theorem msrWithAlu_getLsbD (msr : Word) (base : Nat) (f : AluFlags) (hb : base + 3 < 16) (j : Nat) :
    (msrWithAlu msr base f).getLsbD j =
      if j = base then f.z else if j = base + 1 then f.c else if j = base + 2 then f.o else if j = base + 3 then f.n
      else msr.getLsbD j := by
  unfold msrWithAlu
  simp only [getLsbD_setBit]
  by_cases h3 : j = base + 3
  · simp [h3]; omega
  · by_cases h2 : j = base + 2
    · simp [h2]; omega
    · by_cases h1 : j = base + 1
      · simp [h1]; omega
      · by_cases h0 : j = base
        · simp [h0]; omega
        · simp [h0, h1, h2, h3]

/-- A bit of the MSR with a whole flag set written (R179). -/
theorem msrWithFlagSet_getLsbD (msr : Word) (base : Nat) (t n o c z : Bool) (hb : base + 4 < 16) (j : Nat) :
    (msrWithFlagSet msr base t n o c z).getLsbD j =
      if j = base then z else if j = base + 1 then c else if j = base + 2 then o else if j = base + 3 then n
      else if j = base + 4 then t else msr.getLsbD j := by
  unfold msrWithFlagSet
  simp only [getLsbD_setBit]
  by_cases h4 : j = base + 4
  · simp [h4]; omega
  · by_cases h3 : j = base + 3
    · simp [h3]; omega
    · by_cases h2 : j = base + 2
      · simp [h2]; omega
      · by_cases h1 : j = base + 1
        · simp [h1]; omega
        · by_cases h0 : j = base
          · simp [h0]; omega
          · simp [h0, h1, h2, h3, h4]

theorem flagBase_le (b : Bool) : flagBase b ≤ 5 := by cases b <;> decide

theorem flagOffset_le (k : Flag) : k.offset ≤ 4 := by cases k <;> decide

/-- Writing the current flags does not change the mode. -/
@[simp] theorem setAluFlags_inSystem (s : State) (f : AluFlags) : (s.setAluFlags f).inSystem = s.inSystem := by
  have hb := flagBase_le s.inSystem
  unfold State.inSystem at *
  rw [setAluFlags_msr, msrWithAlu_getLsbD _ _ _ (by unfold State.inSystem; omega)]
  unfold State.inSystem
  split <;> first | omega | (split <;> first | omega | (split <;> first | omega | (split <;> first | omega | rfl)))

@[simp] theorem setAluFlagsIf_inSystem (s : State) (sf : Bool) (f : AluFlags) :
    (s.setAluFlagsIf sf f).inSystem = s.inSystem := by
  cases sf <;> simp [State.setAluFlagsIf]

@[simp] theorem setFlag_inSystem (s : State) (k : Flag) (v : Bool) : (s.setFlag k v).inSystem = s.inSystem := by
  have hb := flagBase_le s.inSystem
  have hk := flagOffset_le k
  show (setBit s.msr (flagBase s.inSystem + k.offset) v).getLsbD 15 = s.msr.getLsbD 15
  rw [getLsbD_setBit, if_neg (by omega)]

/-- The flags of the current set after they are written (R17). -/
@[simp] theorem setAluFlags_aluFlags (s : State) (f : AluFlags) : (s.setAluFlags f).aluFlags = f := by
  have hb := flagBase_le s.inSystem
  unfold State.aluFlags State.flag
  simp only [setAluFlags_inSystem, setAluFlags_msr, msrWithAlu_getLsbD _ _ _ (show flagBase s.inSystem + 3 < 16 by omega),
    Flag.offset]
  simp

/-- The T flag is not one of the four arithmetic flags (R19). -/
@[simp] theorem setAluFlags_t (s : State) (f : AluFlags) : (s.setAluFlags f).flag .t = s.flag .t := by
  have hb := flagBase_le s.inSystem
  unfold State.flag
  simp only [setAluFlags_inSystem, setAluFlags_msr, msrWithAlu_getLsbD _ _ _ (show flagBase s.inSystem + 3 < 16 by omega),
    Flag.offset]
  simp

/-- A flag of the current set after one of them is written. -/
@[simp] theorem setFlag_flag (s : State) (k j : Flag) (v : Bool) :
    (s.setFlag k v).flag j = if j = k then v else s.flag j := by
  have hb := flagBase_le s.inSystem
  have hk := flagOffset_le j
  unfold State.flag
  simp only [setFlag_inSystem, setFlag_msr, getLsbD_setBit]
  by_cases h : j = k
  · subst h
    simp
    omega
  · have hne : j.offset ≠ k.offset := by
      cases j <;> cases k <;> first | exact absurd rfl h | decide
    rw [if_neg (by omega), if_neg h]

/-! ## Registers -/

/-- A register of either bank after a write of one of the current bank (R11, R13). -/
theorem bankReg_setReg (s : State) (r q : Reg) (w : Word) (b : Bool) :
    (s.setReg r w).bankReg b q = if b = s.inSystem ∧ q = r then w else s.bankReg b q := by
  unfold State.bankReg
  cases b <;> cases h : s.inSystem <;> simp [h]

/-! ## Trap entry and return -/

/-- The MSR of trap entry, bit by bit (R290). -/
theorem trapMsr_getLsbD (msr : Word) (j : Nat) :
    (trapMsr msr).getLsbD j =
      if j = 15 then true else if j = 14 then msr.getLsbD 15 else if j = 11 then false else msr.getLsbD j := by
  unfold trapMsr bitS bitM bitGX
  simp only [getLsbD_setBit]
  by_cases h15 : j = 15
  · simp [h15]
  · by_cases h14 : j = 14
    · simp [h14]
    · by_cases h11 : j = 11
      · simp [h11]
      · simp [h15, h14, h11]

/-- Trap entry is R290. -/
theorem enterTrap_spec (s : State) (t : Trap) (link : Word) : TrapEntered s (s.enterTrap t link) t.vector link where
  pc := rfl
  link := by simp
  sysBank r hr := by simp [hr]
  usrBank := rfl
  mode := by simp [trapMsr_getLsbD]
  previous := by rw [enterTrap_msr, trapMsr_getLsbD]; simp
  interrupts := by rw [enterTrap_msr, trapMsr_getLsbD]; simp
  msr i h1 h2 h3 := by rw [enterTrap_msr, trapMsr_getLsbD]; simp [h1, h2, h3]
  iLink := rfl
  dLink := rfl
  sysI := rfl
  sysD := rfl
  irqBase := rfl
  usrI := rfl
  usrD := rfl
  infoSel := rfl
  noWindow := ⟨rfl, rfl⟩
  running := rfl
  devices := ⟨rfl, rfl, rfl, rfl, rfl, rfl, rfl, rfl, rfl, rfl, rfl, rfl, rfl, rfl⟩
  memory := ⟨fun _ => rfl, fun _ => rfl⟩

/-- The MSR that a return leaves, bit by bit (R167). -/
theorem returnMsr_getLsbD (msr : Word) (mode : StpcMode) (ie : Bool) (j : Nat) :
    (returnMsr msr mode ie).getLsbD j =
      if j = 15 then (match mode with | .keep => msr.getLsbD 15 | .exchange => msr.getLsbD 14 | .user => false)
      else if j = 11 then ie || msr.getLsbD 11 else msr.getLsbD j := by
  unfold returnMsr bitGX bitM bitS
  cases mode <;> cases ie <;> simp only [getLsbD_setBit] <;> by_cases h15 : j = 15 <;> by_cases h11 : j = 11 <;>
    simp_all [-BitVec.getLsbD_eq_getElem]

/-- A transfer of control touches the pc, the MSR and, with L, the link register (R167). -/
theorem transfer_spec (s : State) (ra : Reg) (mode : StpcMode) (link ie : Bool) :
    s.transfer ra mode link ie =
      { (if link then s.setReg .r7 (s.pc + 2) else s) with
        msr := returnMsr s.msr mode ie, pc := clearBit0 (s.reg ra) } := rfl

/-! ## Pages -/

/-- The page of a data access is the current one or one that the delay window still holds (R55). -/
theorem dataPage_spec (s : State) :
    s.dataPage.1 = s.dPage ∨ (s.inSystem = true ∧ ∃ p ∈ s.mmu.dOld, s.dataPage.1 = p.1) := by
  unfold State.dataPage State.dPage
  cases h : s.inSystem
  · left; simp
  · simp only [if_true]
    split
    · left; rfl
    · rename_i p ps hd
      rw [hd]
      simp only [true_and]
      have hm : ∀ (l : List Word) (k : Nat) (d : Word), l.getD k d = d ∨ l.getD k d ∈ l := by
        intro l k d
        by_cases hk : k < l.length
        · right; rw [List.getD_eq_getElem _ _ hk]; exact List.getElem_mem hk
        · left; rw [List.getD_eq_default _ _ (by omega)]
      rcases hm (s.mmu.sysD :: p.1 :: ps.map (·.1))
          (Config.dPageChoice s.draws % (s.mmu.sysD :: p.1 :: ps.map (·.1)).length) s.mmu.sysD with h1 | h1
      · left; exact h1
      · rcases List.mem_cons.1 h1 with h2 | h2
        · left; exact h2
        · right
          rcases List.mem_cons.1 h2 with h3 | h3
          · exact ⟨p, List.mem_cons_self .., h3⟩
          · obtain ⟨q, hq, he⟩ := List.mem_map.1 h3
            exact ⟨q, List.mem_cons_of_mem _ hq, he.symm⟩

/-- With no write of the D-page in flight the page is the current one, and nothing is drawn (R52). -/
theorem dataPage_settled (s : State) (h : s.mmu.dOld = []) : s.dataPage = (s.dPage, s) := by
  unfold State.dataPage State.dPage
  cases s.inSystem <;> simp [h]

end Sys2Proof.Laws
end

