-- ==== Sys2Proof/Laws/Shapes.lean ====
section
/-! SUPPORT. One lemma for each shared ending of an instruction: the whole of what it does, in the terms of Safety.lean. -/

namespace Sys2Proof.Laws

open Sys2Proof.Machine

/-! ## Accessors through the updates that leave them alone -/

@[simp] theorem advance_inSystem (s : State) : s.advance.inSystem = s.inSystem := rfl
@[simp] theorem setPc_inSystem (s : State) (w : Word) : (s.setPc w).inSystem = s.inSystem := rfl
@[simp] theorem advance_reg (s : State) (r : Reg) : s.advance.reg r = s.reg r := rfl
@[simp] theorem setPc_reg (s : State) (w : Word) (r : Reg) : (s.setPc w).reg r = s.reg r := rfl
@[simp] theorem advance_flag (s : State) (k : Flag) : s.advance.flag k = s.flag k := rfl
@[simp] theorem advance_aluFlags (s : State) : s.advance.aluFlags = s.aluFlags := rfl
@[simp] theorem advance_bankReg (s : State) (b : Bool) (r : Reg) : s.advance.bankReg b r = s.bankReg b r := rfl
@[simp] theorem setPc_bankReg (s : State) (w : Word) (b : Bool) (r : Reg) :
    (s.setPc w).bankReg b r = s.bankReg b r := rfl
@[simp] theorem setFlag_bankReg (s : State) (k : Flag) (v : Bool) (b : Bool) (r : Reg) :
    (s.setFlag k v).bankReg b r = s.bankReg b r := rfl
@[simp] theorem setFlag_reg (s : State) (k : Flag) (v : Bool) (r : Reg) : (s.setFlag k v).reg r = s.reg r := by
  unfold State.reg; rw [setFlag_inSystem]; rfl
@[simp] theorem setReg_flag (s : State) (r : Reg) (w : Word) (k : Flag) : (s.setReg r w).flag k = s.flag k := by
  unfold State.flag; simp
@[simp] theorem setReg_aluFlags (s : State) (r : Reg) (w : Word) : (s.setReg r w).aluFlags = s.aluFlags := by
  unfold State.aluFlags; simp
@[simp] theorem setReg_cond (s : State) (r : Reg) (w : Word) (c : Cond) : (s.setReg r w).cond c = s.cond c := by
  unfold State.cond; simp
@[simp] theorem setAluFlagsIf_reg (s : State) (sf : Bool) (f : AluFlags) (r : Reg) :
    (s.setAluFlagsIf sf f).reg r = s.reg r := by
  unfold State.reg; rw [setAluFlagsIf_inSystem]; simp
@[simp] theorem setAluFlags_reg (s : State) (f : AluFlags) (r : Reg) : (s.setAluFlags f).reg r = s.reg r :=
  setAluFlagsIf_reg s true f r
@[simp] theorem setAluFlagsIf_bankReg (s : State) (sf : Bool) (f : AluFlags) (b : Bool) (r : Reg) :
    (s.setAluFlagsIf sf f).bankReg b r = s.bankReg b r := by
  cases sf <;> rfl

/-- A register of the current bank, by the name of the bank. -/
theorem reg_eq_bankReg (s : State) (r : Reg) : s.reg r = s.bankReg s.inSystem r := by
  unfold State.reg State.bankReg; rfl

/-! ## Frames -/

/-- The MSR bits outside the current arithmetic flags are kept when those are written. -/
theorem setAluFlags_bits (s : State) (f : AluFlags) (i : Nat) (h : i ∉ s.aluBits) :
    (s.setAluFlags f).msr.getLsbD i = s.msr.getLsbD i := by
  have hb := flagBase_le s.inSystem
  simp only [State.aluBits, List.mem_cons, List.not_mem_nil, or_false, not_or] at h
  rw [setAluFlags_msr, msrWithAlu_getLsbD _ _ _ (by omega), if_neg h.1, if_neg h.2.1, if_neg h.2.2.1, if_neg h.2.2.2]

/-- A data-processing instruction with a result does what R120 says. -/
theorem finishAlu_step (s : State) (rd : Reg) (sf : Bool) (o : AluOut) :
    AluStep s (s.finishAlu rd sf o) rd sf o.result o.flags where
  result := by simp [State.finishAlu]
  flags h := by subst h; simp [State.finishAlu, State.setAluFlagsIf]
  pc := by simp [State.finishAlu]
  frame :=
    { registers :=
        { regs := fun b r h => by
            have : ¬(b = s.inSystem ∧ r = rd) := by simpa using h
            simp [State.finishAlu, bankReg_setReg, this]
          msr := fun i h => by
            cases sf
            · simp [State.finishAlu, State.setAluFlagsIf]
            · have := setAluFlags_bits (s.setReg rd o.result) o.flags i (by simpa [State.aluBits] using h)
              simpa [State.finishAlu, State.setAluFlagsIf] using this }
      mmu := by simp [State.finishAlu]
      sleeping := by simp [State.finishAlu]
      devices := by constructor <;> simp [State.finishAlu]
      memory := by constructor <;> simp [State.finishAlu] }

/-- A compare or test does what R120 says. -/
theorem finishTest_step (s : State) (f : AluFlags) : TestStep s (s.finishTest f) f where
  flags := by simp [State.finishTest]
  pc := rfl
  frame :=
    { registers :=
        { regs := fun _ _ _ => rfl
          msr := fun i h => setAluFlags_bits s f i h }
      mmu := rfl
      sleeping := rfl
      devices := ⟨rfl, rfl, rfl, rfl, rfl, rfl, rfl, rfl, rfl, rfl, rfl, rfl, rfl, rfl⟩
      memory := ⟨fun _ => rfl, fun _ => rfl⟩ }

/-- A write of one register and an advance. -/
theorem move_step (s : State) (rd : Reg) (r : Word) : MoveStep s (s.setReg rd r).advance rd r where
  result := by simp
  pc := by simp
  frame :=
    { registers :=
        { regs := fun b q h => by
            have : ¬(b = s.inSystem ∧ q = rd) := by simpa using h
            simp [bankReg_setReg, this]
          msr := fun i _ => by simp }
      mmu := by simp
      sleeping := by simp
      devices := by constructor <;> simp
      memory := by constructor <;> simp }

/-- A store to the T flag and an advance (R220). -/
theorem finishT_step (s : State) (v : Bool) : TStep s (s.finishT v) v where
  flag := by simp [State.finishT]
  pc := rfl
  frame :=
    { registers :=
        { regs := fun _ _ _ => rfl
          msr := fun i h => by
            have h : i ≠ flagBase s.inSystem + 4 := by simpa [State.tBit] using h
            simp [State.finishT, Flag.offset, h, -BitVec.getLsbD_eq_getElem] }
      mmu := rfl
      sleeping := rfl
      devices := ⟨rfl, rfl, rfl, rfl, rfl, rfl, rfl, rfl, rfl, rfl, rfl, rfl, rfl, rfl⟩
      memory := ⟨fun _ => rfl, fun _ => rfl⟩ }

/-- An exception raised by the instruction at the program counter (R290, R291). -/
theorem raiseTrap_spec (s : State) (t : Trap) : TrapEntered s (s.raiseTrap t) t.vector (s.pc + 4) := enterTrap_spec s t _

/-- An interrupt taken before the instruction at the program counter (R290, R291). -/
theorem takeInterrupt_spec (s : State) (t : Trap) : TrapEntered s (s.takeInterrupt t) t.vector (s.pc + 2) :=
  enterTrap_spec s t _

end Sys2Proof.Laws
end

