-- ==== Sys2Proof/Laws/Alu.lean ====
section
/-! SUPPORT. What the shared computations of Flags.lean give, in the terms of Safety.lean: results modulo 2^16 and the
flags of the exact integers (spec/40_data_processing.md R121 to R125, R144 to R151). -/

namespace Sys2Proof.Laws

open Sys2Proof.Machine

/-- Bit 15 of a word as a bound on its value. -/
theorem getLsbD_15 (w : Word) : w.getLsbD 15 = decide (2 ^ 15 ≤ w.toNat) := by
  have h := w.isLt
  rw [← BitVec.msb_eq_getLsbD_last (x := w), BitVec.msb_eq_decide]

/-- The result of an addition (R122). -/
theorem addOut_result (a b : Word) (c : Bool) : (addOut a b c).result = a + b + (if c then 1 else 0) := by
  unfold addOut bitNat
  cases c <;> apply BitVec.eq_of_toNat_eq <;> simp [BitVec.toNat_add]

/-- The flags of an addition are those of the exact sum (R121, R122). -/
theorem addOut_flags (a b : Word) (c : Bool) : (addOut a b c).flags = sumFlags a b c := by
  unfold addOut sumFlags zeroFlag negativeFlag overflows bitNat
  simp only [getLsbD_15, ← BitVec.toNat_inj]
  cases c <;> simp

/-- The result of a subtraction (R123). -/
theorem subOut_result (k : SubCarry) (a b : Word) (c : Bool) :
    (subOut k a b c).result = a - b - (if c then 1 else 0) := by
  unfold subOut bitNat
  cases c <;> apply BitVec.eq_of_toNat_eq <;> simp only [BitVec.toNat_ofInt, BitVec.toNat_sub] <;> simp <;> omega

/-- Zero and sign of a difference. -/
theorem ofInt_zero (d : Int) : (BitVec.ofInt 16 d = 0#16) ↔ (d % 2 ^ 16 = 0) := by
  rw [← BitVec.toNat_inj, BitVec.toNat_ofInt]; simp; omega

theorem ofInt_negative (d : Int) : (BitVec.ofInt 16 d).getLsbD 15 = decide (2 ^ 15 ≤ d % 2 ^ 16) := by
  rw [getLsbD_15, BitVec.toNat_ofInt, decide_eq_decide]; simp; omega

/-- The flags of a subtraction are those of the exact difference (R121, R123). -/
theorem subOut_flags (k : SubCarry) (a b : Word) (c : Bool) : (subOut k a b c).flags = diffFlags k a b c := by
  unfold subOut diffFlags zeroFlag negativeFlag overflows bitNat
  simp only [ofInt_zero, ofInt_negative]
  cases k <;> cases c <;> simp [carryOfBorrow, ← decide_not]

/-- The borrow input under either sense (R123). -/
theorem borrowIn_eq (k : SubCarry) (c : Bool) : borrowIn k c = borrowOf k c := by cases k <;> rfl

/-- The result of a shift is the operation on the whole word (R144 to R151). -/
theorem shiftResult_eq (t : ShiftType) (a : Word) (c : Bool) : shiftResult t a c = shiftedWord t a c := by
  cases t <;> unfold shiftResult shiftedWord swapBytes <;> apply BitVec.eq_of_getLsbD_eq <;>
    intro i hi <;> simp only [BitVec.getLsbD_append, BitVec.getLsbD_extractLsb', BitVec.getLsbD_or,
      BitVec.getLsbD_shiftLeft, BitVec.getLsbD_ushiftRight, BitVec.getLsbD_sshiftRight, BitVec.getLsbD_rotateLeft,
      BitVec.getLsbD_rotateRight] <;>
    cases c <;> interval_cases i <;> simp [BitVec.msb_eq_getLsbD_last]

/-- The bit that a shift moves out (R144 to R151). -/
theorem shiftCarry_eq (t : ShiftType) (a : Word) : shiftCarry t a = shiftedOut t a := by cases t <;> rfl

end Sys2Proof.Laws
end

