-- ==== Sys2Proof/Laws/Devices.lean ====
section
/-! SUPPORT. What the coprocessor transactions and the agents leave alone: the core's own state and the memories. -/

namespace Sys2Proof.Laws

open Sys2Proof.Machine

/-- The core's own state, the memories and the model's fixed fields are as before. -/
structure CoreUntouched (s t : State) : Prop where
  pc : t.pc = s.pc
  msr : t.msr = s.msr
  usr : t.usr = s.usr
  sys : t.sys = s.sys
  sleeping : t.sleeping = s.sleeping
  boundary : t.boundary = s.boundary
  ram : t.ram = s.ram
  rom : t.rom = s.rom
  params : t.params = s.params
  script : t.script = s.script

theorem CoreUntouched.refl (s : State) : CoreUntouched s s := ⟨rfl, rfl, rfl, rfl, rfl, rfl, rfl, rfl, rfl, rfl⟩

theorem CoreUntouched.trans {s t u : State} (h : CoreUntouched s t) (k : CoreUntouched t u) : CoreUntouched s u :=
  ⟨k.pc.trans h.pc, k.msr.trans h.msr, k.usr.trans h.usr, k.sys.trans h.sys, k.sleeping.trans h.sleeping,
    k.boundary.trans h.boundary, k.ram.trans h.ram, k.rom.trans h.rom, k.params.trans h.params, k.script.trans h.script⟩

/-! ## Reads -/

theorem readIrqSm_core (s : State) : CoreUntouched s s.readIrqSm.2 := by
  unfold State.readIrqSm; split <;> exact ⟨rfl, rfl, rfl, rfl, rfl, rfl, rfl, rfl, rfl, rfl⟩

theorem catchUpLfsr_core (s : State) : CoreUntouched s s.catchUpLfsr := by
  unfold State.catchUpLfsr; split <;> exact ⟨rfl, rfl, rfl, rfl, rfl, rfl, rfl, rfl, rfl, rfl⟩

theorem readLfsr_core (s : State) : CoreUntouched s s.readLfsr.2 := by
  unfold State.readLfsr; split
  · exact catchUpLfsr_core s
  · exact ⟨rfl, rfl, rfl, rfl, rfl, rfl, rfl, rfl, rfl, rfl⟩

theorem readSpi_core (s : State) : CoreUntouched s s.readSpi.2 := by
  unfold State.readSpi; split <;> exact ⟨rfl, rfl, rfl, rfl, rfl, rfl, rfl, rfl, rfl, rfl⟩

theorem popRx_core {s t : State} {v : Word} (h : s.popRx = .ok (v, t)) : CoreUntouched s t := by
  unfold State.popRx at h
  repeat' split at h
  all_goals cases h
  all_goals exact ⟨rfl, rfl, rfl, rfl, rfl, rfl, rfl, rfl, rfl, rfl⟩

/-- A read of the system coprocessor touches nothing of the core (R235). -/
theorem sysRead_core {s t : State} {m r : BitVec 3} {v : Word} (h : s.sysRead m r = .ok (v, t)) : CoreUntouched s t := by
  unfold State.sysRead at h
  split at h <;> first
    | exact popRx_core h
    | (have e := congrArg (Except.map Prod.snd) h
       simp only [Except.map, Except.ok.injEq] at e
       subst e
       first
         | exact CoreUntouched.refl s
         | exact readIrqSm_core s
         | exact readLfsr_core s
         | exact readSpi_core s
         | exact ⟨rfl, rfl, rfl, rfl, rfl, rfl, rfl, rfl, rfl, rfl⟩)

/-! ## Writes -/

theorem guarded_core {s t u : State} {b : Bool} {q : Refusal}
    (h : (if b then Except.error q else Except.ok u : Except Refusal State) = .ok t) (hu : CoreUntouched s u) :
    CoreUntouched s t := by
  cases b <;> simp at h
  subst h
  exact hu

theorem writeUart_core {s t : State} {v : Word} (h : s.writeUart v = .ok t) : CoreUntouched s t := by
  unfold State.writeUart at h
  repeat' split at h
  all_goals cases h
  exact ⟨rfl, rfl, rfl, rfl, rfl, rfl, rfl, rfl, rfl, rfl⟩

theorem pushTx_core {s t : State} {v : Word} (h : s.pushTx v = .ok t) : CoreUntouched s t := by
  unfold State.pushTx at h
  repeat' split at h
  all_goals cases h
  exact ⟨rfl, rfl, rfl, rfl, rfl, rfl, rfl, rfl, rfl, rfl⟩

theorem writeLfsrPoly_core (s : State) (v : Word) : CoreUntouched s (s.writeLfsrPoly v) :=
  (catchUpLfsr_core s).trans ⟨rfl, rfl, rfl, rfl, rfl, rfl, rfl, rfl, rfl, rfl⟩

/-- A write to the system coprocessor touches nothing of the core (R236). -/
theorem sysWrite_core {s t : State} {m r : BitVec 3} {v : Word} (h : s.sysWrite m r v = .ok t) : CoreUntouched s t := by
  unfold State.sysWrite at h
  split at h <;> first
    | exact writeUart_core h
    | exact pushTx_core h
    | exact guarded_core h ⟨rfl, rfl, rfl, rfl, rfl, rfl, rfl, rfl, rfl, rfl⟩
    | (cases h
       first
         | exact writeLfsrPoly_core s v
         | exact ⟨rfl, rfl, rfl, rfl, rfl, rfl, rfl, rfl, rfl, rfl⟩)

/-- A command of the Wishbone adapter touches nothing of the core (R408). -/
theorem wishboneCommand_core {s t : State} {c : BitVec 3} (h : s.wishboneCommand c = .ok t) : CoreUntouched s t := by
  unfold State.wishboneCommand at h
  repeat' split at h
  all_goals cases h
  all_goals exact ⟨rfl, rfl, rfl, rfl, rfl, rfl, rfl, rfl, rfl, rfl⟩

/-! ## The three transactions -/

theorem cp0Transaction_core (s : State) (o : HostOutput) : CoreUntouched s (s.cp0Transaction o) := by
  unfold State.cp0Transaction
  split <;> exact ⟨rfl, rfl, rfl, rfl, rfl, rfl, rfl, rfl, rfl, rfl⟩

/-- CpRead touches nothing of the core (R235, R243). -/
theorem cpRead_core {s t : State} {cp : Cp} {rd r c : BitVec 3} {v : Word} (h : s.cpRead cp rd r c = .ok (v, t)) :
    CoreUntouched s t := by
  cases cp with
  | cp1 => exact sysRead_core h
  | cp0 =>
    simp only [State.cpRead] at h
    split at h
    · cases h
      exact CoreUntouched.trans (t := s.drawn) ⟨rfl, rfl, rfl, rfl, rfl, rfl, rfl, rfl, rfl, rfl⟩ (cp0Transaction_core _ _)
    · cases h
      exact CoreUntouched.refl s

/-- CpWrite touches nothing of the core (R236, R243). -/
theorem cpWrite_core {s t : State} {cp : Cp} {r ra c : BitVec 3} {v : Word} (h : s.cpWrite cp r ra c v = .ok t) :
    CoreUntouched s t := by
  cases cp with
  | cp1 => exact sysWrite_core h
  | cp0 =>
    cases h
    exact cp0Transaction_core _ _

/-- CpCommand touches nothing of the core (R237, R243). -/
theorem cpCommand_core {s t : State} {cp : Cp} {a b c : BitVec 3} (h : s.cpCommand cp a b c = .ok t) :
    CoreUntouched s t := by
  cases cp with
  | cp1 =>
    simp only [State.cpCommand] at h
    split at h
    · cases h
    · split at h
      · exact wishboneCommand_core h
      · cases h
  | cp0 =>
    cases h
    exact cp0Transaction_core _ _

/-! ## The agents -/

/-- A clock cycle touches nothing of the core (R342). -/
theorem clockCycle_core (s : State) : CoreUntouched s s.clockCycle :=
  ⟨by simp, by simp, by simp, by simp, by simp, by simp, by simp, by simp, by simp, by simp⟩

theorem uartReceived_core (s : State) (b : Byte) : CoreUntouched s (s.uartReceived b) := by
  unfold State.uartReceived
  repeat' split
  all_goals exact ⟨rfl, rfl, rfl, rfl, rfl, rfl, rfl, rfl, rfl, rfl⟩

theorem uartSent_core (s : State) : CoreUntouched s s.uartSent := by
  unfold State.uartSent
  split <;> exact ⟨rfl, rfl, rfl, rfl, rfl, rfl, rfl, rfl, rfl, rfl⟩

theorem spiFinished_core (s : State) (w : Word) : CoreUntouched s (s.spiFinished w) := by
  unfold State.spiFinished
  split <;> exact ⟨rfl, rfl, rfl, rfl, rfl, rfl, rfl, rfl, rfl, rfl⟩

/-- What touches nothing of the core touches nothing where the clock stands either (R63). -/
theorem whenClocked_core {s u : State} (h : CoreUntouched s u) : CoreUntouched s (s.whenClocked u) := by
  unfold State.whenClocked
  split
  · exact h
  · exact CoreUntouched.refl s

theorem samplePio_core (s : State) : CoreUntouched s s.samplePio := by
  unfold State.samplePio
  dsimp only
  split <;> exact ⟨rfl, rfl, rfl, rfl, rfl, rfl, rfl, rfl, rfl, rfl⟩

theorem sampleIrq0_core (s : State) : CoreUntouched s s.sampleIrq0 := by
  unfold State.sampleIrq0
  dsimp only
  split <;> exact ⟨rfl, rfl, rfl, rfl, rfl, rfl, rfl, rfl, rfl, rfl⟩

theorem sampleIrq1_core (s : State) : CoreUntouched s s.sampleIrq1 := by
  unfold State.sampleIrq1
  dsimp only
  split <;> exact ⟨rfl, rfl, rfl, rfl, rfl, rfl, rfl, rfl, rfl, rfl⟩

theorem pioPins_core (s : State) (v : Word) : CoreUntouched s (s.pioPins v) :=
  CoreUntouched.trans (t := { s with pins := { s.pins with pioIn := v } }) ⟨rfl, rfl, rfl, rfl, rfl, rfl, rfl, rfl, rfl, rfl⟩
    (whenClocked_core (samplePio_core _))

theorem driveIrq0_core (s : State) (b : Bool) : CoreUntouched s (s.driveIrq0 b) :=
  CoreUntouched.trans (t := { s with pins := { s.pins with irq0 := b } }) ⟨rfl, rfl, rfl, rfl, rfl, rfl, rfl, rfl, rfl, rfl⟩
    (whenClocked_core (sampleIrq0_core _))

theorem driveIrq1_core (s : State) (b : Bool) : CoreUntouched s (s.driveIrq1 b) :=
  CoreUntouched.trans (t := { s with pins := { s.pins with irq1 := b } }) ⟨rfl, rfl, rfl, rfl, rfl, rfl, rfl, rfl, rfl, rfl⟩
    (whenClocked_core (sampleIrq1_core _))

theorem driveCe_core (s : State) (b : Bool) : CoreUntouched s (s.driveCe b) := by
  have e : CoreUntouched s { s with pins := { s.pins with ce := b } } := ⟨rfl, rfl, rfl, rfl, rfl, rfl, rfl, rfl, rfl, rfl⟩
  unfold State.driveCe
  dsimp only
  split
  · exact e
  · exact e.trans (whenClocked_core ((samplePio_core _).trans ((sampleIrq0_core _).trans (sampleIrq1_core _))))

/-- What the host can do to the memory of the bare processor: change one whole word outside the boot ROM (R7, R51). -/
theorem hostMemory_spec (s : State) (page a w : Word) :
    s.hostMemory page a w = s
      ∨ (s.params.bareProcessor = true ∧ inRom page = false
        ∧ s.hostMemory page a w = { s with ram := s.ram.writeWord (ramAddress s.params page a) w }) := by
  unfold State.hostMemory
  split
  · rename_i h
    simp only [Bool.and_eq_true, Bool.not_eq_true'] at h
    exact .inr ⟨h.1, h.2, rfl⟩
  · exact .inl rfl

theorem pushRx_core (s : State) (w : Word) : CoreUntouched s (s.pushRx w) := by
  unfold State.pushRx
  split <;> exact ⟨rfl, rfl, rfl, rfl, rfl, rfl, rfl, rfl, rfl, rfl⟩

theorem moveWord_core (s : State) (w : Word) : CoreUntouched s (s.moveWord w) := by
  unfold State.moveWord
  dsimp only
  split
  · exact ⟨rfl, rfl, rfl, rfl, rfl, rfl, rfl, rfl, rfl, rfl⟩
  · exact (pushRx_core s w).trans ⟨rfl, rfl, rfl, rfl, rfl, rfl, rfl, rfl, rfl, rfl⟩

theorem finishIfDone_core (s : State) : CoreUntouched s s.finishIfDone := by
  unfold State.finishIfDone
  split <;> exact ⟨rfl, rfl, rfl, rfl, rfl, rfl, rfl, rfl, rfl, rfl⟩

theorem wishboneReply_core (s : State) (r : WbReply) : CoreUntouched s (s.wishboneReply r) := by
  unfold State.wishboneReply
  split
  · split
    · exact ⟨rfl, rfl, rfl, rfl, rfl, rfl, rfl, rfl, rfl, rfl⟩
    · have e : CoreUntouched s (s.emit s.wishboneAccess) := ⟨rfl, rfl, rfl, rfl, rfl, rfl, rfl, rfl, rfl, rfl⟩
      cases r with
      | ack w => exact e.trans ((moveWord_core _ _).trans (finishIfDone_core _))
      | err => exact ⟨rfl, rfl, rfl, rfl, rfl, rfl, rfl, rfl, rfl, rfl⟩
      | timeout => exact ⟨rfl, rfl, rfl, rfl, rfl, rfl, rfl, rfl, rfl, rfl⟩
  · exact CoreUntouched.refl s

/-- No agent touches the core but the reset, and the host with a word of the bare processor's memory (R7). -/
theorem agentAct_core (e : AgentEvent) (s : State) (he : e ≠ .reset) :
    CoreUntouched s (agentAct e s)
      ∨ ∃ page a w, e = .hostMemory page a w ∧ s.params.bareProcessor = true ∧ inRom page = false
        ∧ agentAct e s = { s with ram := s.ram.writeWord (ramAddress s.params page a) w } := by
  cases e with
  | reset => exact absurd rfl he
  | hostMemory page a w =>
    rcases hostMemory_spec s page a w with h | ⟨hb, hp, h⟩
    · exact .inl (by rw [show agentAct (.hostMemory page a w) s = s from h]; exact CoreUntouched.refl s)
    · exact .inr ⟨page, a, w, rfl, hb, hp, h⟩
  | clock => exact .inl (whenClocked_core (clockCycle_core s))
  | uartReceived b => exact .inl (whenClocked_core (uartReceived_core s b))
  | uartSent => exact .inl (whenClocked_core (uartSent_core s))
  | spiFinished w => exact .inl (whenClocked_core (spiFinished_core s w))
  | pioPins v => exact .inl (pioPins_core s v)
  | irqPin0 b => exact .inl (driveIrq0_core s b)
  | irqPin1 b => exact .inl (driveIrq1_core s b)
  | clockEnable b => exact .inl (driveCe_core s b)
  | wishbone r => exact .inl (whenClocked_core (wishboneReply_core s r))
  | sysPins v => exact .inl ⟨rfl, rfl, rfl, rfl, rfl, rfl, rfl, rfl, rfl, rfl⟩
  | criticalPin b => exact .inl ⟨rfl, rfl, rfl, rfl, rfl, rfl, rfl, rfl, rfl, rfl⟩

end Sys2Proof.Laws
end

