-- ==== Sys2Proof/Laws/Encoding.lean ====
section
/-! SUPPORT. The small lemmas of the codecs of Decode.lean: each operand field is read back from its bits, and each
format's fields are read back from the word. -/

namespace Sys2Proof.Laws

@[simp] theorem reg_ofBits_toBits (r : Reg) : Reg.ofBits r.toBits = r := by cases r <;> rfl

@[simp] theorem cond_ofBits_toBits (c : Cond) : Cond.ofBits c.toBits = c := by cases c <;> rfl

@[simp] theorem shiftType_ofBits_toBits (t : ShiftType) : ShiftType.ofBits t.toBits = t := by cases t <;> rfl

@[simp] theorem msrPart_ofBits_toBits (p : MsrPart) : MsrPart.ofBits p.toBits = p := by cases p <;> rfl

@[simp] theorem flagSet_ofBit_toBit (f : FlagSet) : FlagSet.ofBit f.toBit = f := by cases f <;> rfl

@[simp] theorem cp_ofBit_toBit (c : Cp) : Cp.ofBit c.toBit = c := by cases c <;> rfl

@[simp] theorem offset_ofBits (o : Offset) : Offset.ofBits o.bitI o.field = o := by
  cases o <;> simp [Offset.ofBits, Offset.bitI, Offset.field]

@[simp] theorem reg_toBits_inj (a b : Reg) : a.toBits = b.toBits ↔ a = b :=
  ⟨fun h => by simpa using congrArg Reg.ofBits h, fun h => h ▸ rfl⟩

/-! ## `00 CMD Rd Ra S Rb` -/

section DataProcessing
variable (cmd : BitVec 4) (rd ra : BitVec 3) (sf : Bool) (rb : BitVec 3)

theorem encodeDp_class : (encodeDp cmd rd ra sf rb).extractLsb' 14 2 = 0#2 := by
  unfold encodeDp; repeat (rw [BitVec.extractLsb'_append_eq_ite]; simp)

theorem encodeDp_cmd : (encodeDp cmd rd ra sf rb).extractLsb' 10 4 = cmd := by
  unfold encodeDp; repeat (rw [BitVec.extractLsb'_append_eq_ite]; simp)

theorem encodeDp_rd : (encodeDp cmd rd ra sf rb).extractLsb' 7 3 = rd := by
  unfold encodeDp; repeat (rw [BitVec.extractLsb'_append_eq_ite]; simp)

theorem encodeDp_ra : (encodeDp cmd rd ra sf rb).extractLsb' 4 3 = ra := by
  unfold encodeDp; repeat (rw [BitVec.extractLsb'_append_eq_ite]; simp)

theorem encodeDp_rb : (encodeDp cmd rd ra sf rb).extractLsb' 0 3 = rb := by
  unfold encodeDp; repeat (rw [BitVec.extractLsb'_append_eq_ite]; simp)

theorem encodeDp_raHigh : (encodeDp cmd rd ra sf rb).extractLsb' 5 2 = ra.extractLsb' 1 2 := by
  unfold encodeDp; repeat (rw [BitVec.extractLsb'_append_eq_ite]; simp)

theorem encodeDp_rdHigh : (encodeDp cmd rd ra sf rb).extractLsb' 8 2 = rd.extractLsb' 1 2 := by
  unfold encodeDp; repeat (rw [BitVec.extractLsb'_append_eq_ite]; simp)

theorem encodeDp_bit3 : (encodeDp cmd rd ra sf rb).getLsbD 3 = sf := by
  unfold encodeDp; simp only [BitVec.getLsbD_append]; simp

theorem encodeDp_bit0 : (encodeDp cmd rd ra sf rb).getLsbD 0 = rb.getLsbD 0 := by
  unfold encodeDp; simp only [BitVec.getLsbD_append]; simp

theorem encodeDp_bit1 : (encodeDp cmd rd ra sf rb).getLsbD 1 = rb.getLsbD 1 := by
  unfold encodeDp; simp only [BitVec.getLsbD_append]; simp

theorem encodeDp_bit2 : (encodeDp cmd rd ra sf rb).getLsbD 2 = rb.getLsbD 2 := by
  unfold encodeDp; simp only [BitVec.getLsbD_append]; simp

theorem encodeDp_bit4 : (encodeDp cmd rd ra sf rb).getLsbD 4 = ra.getLsbD 0 := by
  unfold encodeDp; simp only [BitVec.getLsbD_append]; simp

theorem encodeDp_bit5 : (encodeDp cmd rd ra sf rb).getLsbD 5 = ra.getLsbD 1 := by
  unfold encodeDp; simp only [BitVec.getLsbD_append]; simp

theorem encodeDp_bit6 : (encodeDp cmd rd ra sf rb).getLsbD 6 = ra.getLsbD 2 := by
  unfold encodeDp; simp only [BitVec.getLsbD_append]; simp

theorem encodeDp_bit7 : (encodeDp cmd rd ra sf rb).getLsbD 7 = rd.getLsbD 0 := by
  unfold encodeDp; simp only [BitVec.getLsbD_append]; simp

theorem encodeDp_bit8 : (encodeDp cmd rd ra sf rb).getLsbD 8 = rd.getLsbD 1 := by
  unfold encodeDp; simp only [BitVec.getLsbD_append]; simp

theorem encodeDp_bit9 : (encodeDp cmd rd ra sf rb).getLsbD 9 = rd.getLsbD 2 := by
  unfold encodeDp; simp only [BitVec.getLsbD_append]; simp

end DataProcessing

/-! ## `01 P U W L Rd Ra I Offset` -/

section Memory
variable (p u wb l : Bool) (rd ra : BitVec 3) (i : Bool) (off : BitVec 3)

theorem encodeMem_class : (encodeMem p u wb l rd ra i off).extractLsb' 14 2 = 1#2 := by
  unfold encodeMem; repeat (rw [BitVec.extractLsb'_append_eq_ite]; simp)

theorem encodeMem_p : (encodeMem p u wb l rd ra i off).getLsbD 13 = p := by
  unfold encodeMem; simp only [BitVec.getLsbD_append]; simp

theorem encodeMem_u : (encodeMem p u wb l rd ra i off).getLsbD 12 = u := by
  unfold encodeMem; simp only [BitVec.getLsbD_append]; simp

theorem encodeMem_w : (encodeMem p u wb l rd ra i off).getLsbD 11 = wb := by
  unfold encodeMem; simp only [BitVec.getLsbD_append]; simp

theorem encodeMem_l : (encodeMem p u wb l rd ra i off).getLsbD 10 = l := by
  unfold encodeMem; simp only [BitVec.getLsbD_append]; simp

theorem encodeMem_rd : (encodeMem p u wb l rd ra i off).extractLsb' 7 3 = rd := by
  unfold encodeMem; repeat (rw [BitVec.extractLsb'_append_eq_ite]; simp)

theorem encodeMem_ra : (encodeMem p u wb l rd ra i off).extractLsb' 4 3 = ra := by
  unfold encodeMem; repeat (rw [BitVec.extractLsb'_append_eq_ite]; simp)

theorem encodeMem_i : (encodeMem p u wb l rd ra i off).getLsbD 3 = i := by
  unfold encodeMem; simp only [BitVec.getLsbD_append]; simp

theorem encodeMem_off : (encodeMem p u wb l rd ra i off).extractLsb' 0 3 = off := by
  unfold encodeMem; repeat (rw [BitVec.extractLsb'_append_eq_ite]; simp)

end Memory

/-! ## `10 COND L Offset` -/

section Branch
variable (c : Cond) (l : Bool) (off : BitVec 9)

theorem encodeBranch_class : (encodeBranch c l off).extractLsb' 14 2 = 2#2 := by
  unfold encodeBranch; repeat (rw [BitVec.extractLsb'_append_eq_ite]; simp)

theorem encodeBranch_cond : (encodeBranch c l off).extractLsb' 10 4 = c.toBits := by
  unfold encodeBranch; repeat (rw [BitVec.extractLsb'_append_eq_ite]; simp)

theorem encodeBranch_l : (encodeBranch c l off).getLsbD 9 = l := by
  unfold encodeBranch; simp only [BitVec.getLsbD_append]; simp

theorem encodeBranch_off : (encodeBranch c l off).extractLsb' 0 9 = off := by
  unfold encodeBranch; repeat (rw [BitVec.extractLsb'_append_eq_ite]; simp)

end Branch

/-! ## `1100 M I7 Rd I6_0` -/

section LoadImmediate
variable (m : Bool) (rd : Reg) (imm : BitVec 8)

theorem encodeImm_class : (encodeImm m rd imm).extractLsb' 14 2 = 3#2 := by
  unfold encodeImm; repeat (rw [BitVec.extractLsb'_append_eq_ite]; simp)

theorem encodeImm_high : (encodeImm m rd imm).extractLsb' 10 1 = imm.extractLsb' 7 1 := by
  unfold encodeImm; repeat (rw [BitVec.extractLsb'_append_eq_ite]; simp)

theorem encodeImm_rd : (encodeImm m rd imm).extractLsb' 7 3 = rd.toBits := by
  unfold encodeImm; repeat (rw [BitVec.extractLsb'_append_eq_ite]; simp)

theorem encodeImm_low : (encodeImm m rd imm).extractLsb' 0 7 = imm.extractLsb' 0 7 := by
  unfold encodeImm; repeat (rw [BitVec.extractLsb'_append_eq_ite]; simp)

theorem encodeImm_group : (encodeImm m rd imm).extractLsb' 10 4 = 0#2 ++ BitVec.ofBool m ++ imm.extractLsb' 7 1 := by
  unfold encodeImm; repeat (rw [BitVec.extractLsb'_append_eq_ite]; simp)

end LoadImmediate

/-! ## `1101 M S Rd Ra Bit` -/

section BitManipulation
variable (ms : BitVec 2) (rd ra : BitVec 3) (bit : BitVec 4)

theorem encodeBit_class : (encodeBit ms rd ra bit).extractLsb' 14 2 = 3#2 := by
  unfold encodeBit; repeat (rw [BitVec.extractLsb'_append_eq_ite]; simp)

theorem encodeBit_group : (encodeBit ms rd ra bit).extractLsb' 10 4 = 1#2 ++ ms := by
  unfold encodeBit; repeat (rw [BitVec.extractLsb'_append_eq_ite]; simp)

theorem encodeBit_rd : (encodeBit ms rd ra bit).extractLsb' 7 3 = rd := by
  unfold encodeBit; repeat (rw [BitVec.extractLsb'_append_eq_ite]; simp)

theorem encodeBit_ra : (encodeBit ms rd ra bit).extractLsb' 4 3 = ra := by
  unfold encodeBit; repeat (rw [BitVec.extractLsb'_append_eq_ite]; simp)

theorem encodeBit_bit : (encodeBit ms rd ra bit).extractLsb' 0 4 = bit := by
  unfold encodeBit; repeat (rw [BitVec.extractLsb'_append_eq_ite]; simp)

theorem encodeBit_ri : (encodeBit ms rd ra bit).extractLsb' 0 3 = bit.extractLsb' 0 3 := by
  unfold encodeBit; repeat (rw [BitVec.extractLsb'_append_eq_ite]; simp)

theorem encodeBit_bit3 : (encodeBit ms rd ra bit).getLsbD 3 = bit.getLsbD 3 := by
  unfold encodeBit; simp only [BitVec.getLsbD_append]; simp

end BitManipulation

/-! ## `111101 1 A L COND Rb` -/

section RegisterBranch
variable (a l : Bool) (c : Cond) (rb : Reg)

theorem encodeRegBranch_class : (encodeRegBranch a l c rb).extractLsb' 14 2 = 3#2 := by
  unfold encodeRegBranch; repeat (rw [BitVec.extractLsb'_append_eq_ite]; simp)

theorem encodeRegBranch_group : (encodeRegBranch a l c rb).extractLsb' 10 4 = 13#4 := by
  unfold encodeRegBranch; repeat (rw [BitVec.extractLsb'_append_eq_ite]; simp)

theorem encodeRegBranch_bit9 : (encodeRegBranch a l c rb).getLsbD 9 = true := by
  unfold encodeRegBranch; simp only [BitVec.getLsbD_append]; simp

theorem encodeRegBranch_a : (encodeRegBranch a l c rb).getLsbD 8 = a := by
  unfold encodeRegBranch; simp only [BitVec.getLsbD_append]; simp

theorem encodeRegBranch_l : (encodeRegBranch a l c rb).getLsbD 7 = l := by
  unfold encodeRegBranch; simp only [BitVec.getLsbD_append]; simp

theorem encodeRegBranch_cond : (encodeRegBranch a l c rb).extractLsb' 3 4 = c.toBits := by
  unfold encodeRegBranch; repeat (rw [BitVec.extractLsb'_append_eq_ite]; simp)

theorem encodeRegBranch_rb : (encodeRegBranch a l c rb).extractLsb' 0 3 = rb.toBits := by
  unfold encodeRegBranch; repeat (rw [BitVec.extractLsb'_append_eq_ite]; simp)

end RegisterBranch

theorem imm8_halves (imm : BitVec 8) : imm.extractLsb' 7 1 ++ imm.extractLsb' 0 7 = imm := by
  revert imm
  decide

theorem imm8_high (imm : BitVec 8) : imm.extractLsb' 7 1 = 0#1 ∨ imm.extractLsb' 7 1 = 1#1 := by
  generalize imm.extractLsb' 7 1 = b
  revert b
  decide

/-! ## `111 K N A B L CMD` -/

section Coprocessor
variable (k : BitVec 5) (n : Bool) (a b : BitVec 3) (l : BitVec 1) (cmd : BitVec 3)

theorem cpWord_class : (k ++ BitVec.ofBool n ++ a ++ b ++ l ++ cmd : Word).extractLsb' 14 2 = k.extractLsb' 3 2 := by
  repeat (rw [BitVec.extractLsb'_append_eq_ite]; simp)

theorem cpWord_group : (k ++ BitVec.ofBool n ++ a ++ b ++ l ++ cmd : Word).extractLsb' 10 4 = k.extractLsb' 0 3 ++ BitVec.ofBool n := by
  repeat (rw [BitVec.extractLsb'_append_eq_ite]; simp)

theorem cpWord_n : (k ++ BitVec.ofBool n ++ a ++ b ++ l ++ cmd : Word).getLsbD 10 = n := by
  simp only [BitVec.getLsbD_append]; simp

theorem cpWord_a : (k ++ BitVec.ofBool n ++ a ++ b ++ l ++ cmd : Word).extractLsb' 7 3 = a := by
  repeat (rw [BitVec.extractLsb'_append_eq_ite]; simp)

theorem cpWord_b : (k ++ BitVec.ofBool n ++ a ++ b ++ l ++ cmd : Word).extractLsb' 4 3 = b := by
  repeat (rw [BitVec.extractLsb'_append_eq_ite]; simp)

theorem cpWord_bit3 : (k ++ BitVec.ofBool n ++ a ++ b ++ l ++ cmd : Word).getLsbD 3 = l.getLsbD 0 := by
  simp only [BitVec.getLsbD_append]; simp

theorem cpWord_cmd : (k ++ BitVec.ofBool n ++ a ++ b ++ l ++ cmd : Word).extractLsb' 0 3 = cmd := by
  repeat (rw [BitVec.extractLsb'_append_eq_ite]; simp)

end Coprocessor

/-! ## `111100 Rd Ra 0 Rb` -/

section Multiply
variable (rd ra rb : BitVec 3)

theorem mulWord_class : (0b111100#6 ++ rd ++ ra ++ 0#1 ++ rb : Word).extractLsb' 14 2 = 3#2 := by
  repeat (rw [BitVec.extractLsb'_append_eq_ite]; simp)

theorem mulWord_group : (0b111100#6 ++ rd ++ ra ++ 0#1 ++ rb : Word).extractLsb' 10 4 = 12#4 := by
  repeat (rw [BitVec.extractLsb'_append_eq_ite]; simp)

theorem mulWord_rd : (0b111100#6 ++ rd ++ ra ++ 0#1 ++ rb : Word).extractLsb' 7 3 = rd := by
  repeat (rw [BitVec.extractLsb'_append_eq_ite]; simp)

theorem mulWord_ra : (0b111100#6 ++ rd ++ ra ++ 0#1 ++ rb : Word).extractLsb' 4 3 = ra := by
  repeat (rw [BitVec.extractLsb'_append_eq_ite]; simp)

theorem mulWord_bit3 : (0b111100#6 ++ rd ++ ra ++ 0#1 ++ rb : Word).getLsbD 3 = false := by
  simp only [BitVec.getLsbD_append]; simp

theorem mulWord_rb : (0b111100#6 ++ rd ++ ra ++ 0#1 ++ rb : Word).extractLsb' 0 3 = rb := by
  repeat (rw [BitVec.extractLsb'_append_eq_ite]; simp)

end Multiply

/-! ## `1111010 Tag` -/

section Sleep
variable (tag : BitVec 9)

theorem sleepWord_class : (0b1111010#7 ++ tag : Word).extractLsb' 14 2 = 3#2 := by
  repeat (rw [BitVec.extractLsb'_append_eq_ite]; simp)

theorem sleepWord_group : (0b1111010#7 ++ tag : Word).extractLsb' 10 4 = 13#4 := by
  repeat (rw [BitVec.extractLsb'_append_eq_ite]; simp)

theorem sleepWord_bit9 : (0b1111010#7 ++ tag : Word).getLsbD 9 = false := by
  simp only [BitVec.getLsbD_append]; simp

theorem sleepWord_tag : (0b1111010#7 ++ tag : Word).extractLsb' 0 9 = tag := by
  repeat (rw [BitVec.extractLsb'_append_eq_ite]; simp)

end Sleep

/-! ## `111110 Rd COND Rb` -/

section ConditionalMove
variable (rd : BitVec 3) (c : BitVec 4) (rb : BitVec 3)

theorem mvWord_class : (0b111110#6 ++ rd ++ c ++ rb : Word).extractLsb' 14 2 = 3#2 := by
  repeat (rw [BitVec.extractLsb'_append_eq_ite]; simp)

theorem mvWord_group : (0b111110#6 ++ rd ++ c ++ rb : Word).extractLsb' 10 4 = 14#4 := by
  repeat (rw [BitVec.extractLsb'_append_eq_ite]; simp)

theorem mvWord_rd : (0b111110#6 ++ rd ++ c ++ rb : Word).extractLsb' 7 3 = rd := by
  repeat (rw [BitVec.extractLsb'_append_eq_ite]; simp)

theorem mvWord_cond : (0b111110#6 ++ rd ++ c ++ rb : Word).extractLsb' 3 4 = c := by
  repeat (rw [BitVec.extractLsb'_append_eq_ite]; simp)

theorem mvWord_rb : (0b111110#6 ++ rd ++ c ++ rb : Word).extractLsb' 0 3 = rb := by
  repeat (rw [BitVec.extractLsb'_append_eq_ite]; simp)

end ConditionalMove

/-! ## `111111 Tag` -/

section SystemCall
variable (tag : BitVec 10)

theorem syscallWord_class : (0b111111#6 ++ tag : Word).extractLsb' 14 2 = 3#2 := by
  repeat (rw [BitVec.extractLsb'_append_eq_ite]; simp)

theorem syscallWord_group : (0b111111#6 ++ tag : Word).extractLsb' 10 4 = 15#4 := by
  repeat (rw [BitVec.extractLsb'_append_eq_ite]; simp)

theorem syscallWord_tag : (0b111111#6 ++ tag : Word).extractLsb' 0 10 = tag := by
  repeat (rw [BitVec.extractLsb'_append_eq_ite]; simp)

end SystemCall

end Sys2Proof.Laws
end

