-- ==== Sys2Proof/Laws/PerInstr.lean ====
section
/-! SUPPORT. One lemma per instruction: the word the encoder writes for it decodes to it (spec/30_encoding.md R94). -/

namespace Sys2Proof.Laws

/-- Decoding the word of a well-formed instruction gives the instruction back. -/
def RoundTrip.Statement (i : Instr) : Prop := i.WellFormed = true → decode (encode i) = .ok i

theorem RoundTrip.inc (rd ra : Reg) (sf : Bool) (imm : BitVec 3) : RoundTrip.Statement (.inc rd ra sf imm) := by
  intro _
  simp [encode, decode, decodeDataProcessing, regField, encodeDp_class, encodeDp_cmd, encodeDp_rd, encodeDp_ra,
    encodeDp_rb, encodeDp_bit3, -BitVec.getLsbD_eq_getElem]

theorem RoundTrip.dec (rd ra : Reg) (sf : Bool) (imm : BitVec 3) : RoundTrip.Statement (.dec rd ra sf imm) := by
  intro _
  simp [encode, decode, decodeDataProcessing, regField, encodeDp_class, encodeDp_cmd, encodeDp_rd, encodeDp_ra,
    encodeDp_rb, encodeDp_bit3, -BitVec.getLsbD_eq_getElem]

theorem RoundTrip.add (rd ra : Reg) (sf : Bool) (rb : Reg) : RoundTrip.Statement (.add rd ra sf rb) := by
  intro _
  simp [encode, decode, decodeDataProcessing, regField, encodeDp_class, encodeDp_cmd, encodeDp_rd, encodeDp_ra,
    encodeDp_rb, encodeDp_bit3, -BitVec.getLsbD_eq_getElem]

theorem RoundTrip.adc (rd ra : Reg) (sf : Bool) (rb : Reg) : RoundTrip.Statement (.adc rd ra sf rb) := by
  intro _
  simp [encode, decode, decodeDataProcessing, regField, encodeDp_class, encodeDp_cmd, encodeDp_rd, encodeDp_ra,
    encodeDp_rb, encodeDp_bit3, -BitVec.getLsbD_eq_getElem]

theorem RoundTrip.sub (rd ra : Reg) (sf : Bool) (rb : Reg) : RoundTrip.Statement (.sub rd ra sf rb) := by
  intro h
  simp only [Instr.WellFormed, decide_eq_true_eq] at h
  simp [encode, decode, decodeDataProcessing, regField, encodeDp_class, encodeDp_cmd, encodeDp_rd, encodeDp_ra,
    encodeDp_rb, encodeDp_bit3, -BitVec.getLsbD_eq_getElem, h]

theorem RoundTrip.neg (rd ra : Reg) (sf : Bool) : RoundTrip.Statement (.neg rd ra sf) := by
  intro _
  simp [encode, decode, decodeDataProcessing, regField, encodeDp_class, encodeDp_cmd, encodeDp_rd, encodeDp_ra,
    encodeDp_rb, encodeDp_bit3, -BitVec.getLsbD_eq_getElem]

theorem RoundTrip.sbc (rd ra : Reg) (sf : Bool) (rb : Reg) : RoundTrip.Statement (.sbc rd ra sf rb) := by
  intro h
  simp only [Instr.WellFormed, decide_eq_true_eq] at h
  simp [encode, decode, decodeDataProcessing, regField, encodeDp_class, encodeDp_cmd, encodeDp_rd, encodeDp_ra,
    encodeDp_rb, encodeDp_bit3, -BitVec.getLsbD_eq_getElem, h]

theorem RoundTrip.nec (rd ra : Reg) (sf : Bool) : RoundTrip.Statement (.nec rd ra sf) := by
  intro _
  simp [encode, decode, decodeDataProcessing, regField, encodeDp_class, encodeDp_cmd, encodeDp_rd, encodeDp_ra,
    encodeDp_rb, encodeDp_bit3, -BitVec.getLsbD_eq_getElem]

theorem RoundTrip.cmp (ra rb : Reg) : RoundTrip.Statement (.cmp ra rb) := by
  intro _
  simp [encode, decode, decodeDataProcessing, decodeCmp, regField, encodeDp_class, encodeDp_cmd, encodeDp_rd,
    encodeDp_ra, encodeDp_rb, encodeDp_bit3, -BitVec.getLsbD_eq_getElem]

theorem RoundTrip.ldsr (rd : Reg) (part : MsrPart) : RoundTrip.Statement (.ldsr rd part) := by
  intro _
  cases part <;> simp [encode, decode, decodeDataProcessing, decodeCmp, regField, encodeDp_class, encodeDp_cmd,
    encodeDp_rd, encodeDp_rb, encodeDp_bit3, -BitVec.getLsbD_eq_getElem, encodeDp_bit4, encodeDp_raHigh,
    MsrPart.toBits, MsrPart.ofBits]

theorem RoundTrip.cpx (notC orZ : Bool) (ra rb : Reg) : RoundTrip.Statement (.cpx notC orZ ra rb) := by
  intro _
  cases notC <;> cases orZ <;> simp [encode, decode, decodeDataProcessing, decodeCpx, regField, encodeDp_class,
    encodeDp_cmd, encodeDp_ra, encodeDp_rb, encodeDp_bit3, -BitVec.getLsbD_eq_getElem, encodeDp_bit7, encodeDp_bit8,
    encodeDp_bit9]

theorem RoundTrip.stsr (part : MsrPart) (rb : Reg) : RoundTrip.Statement (.stsr part rb) := by
  intro _
  cases part <;> simp [encode, decode, decodeDataProcessing, decodeCpx, regField, encodeDp_class, encodeDp_cmd,
    encodeDp_rd, encodeDp_rb, encodeDp_bit3, -BitVec.getLsbD_eq_getElem, encodeDp_bit4, encodeDp_raHigh,
    MsrPart.toBits, MsrPart.ofBits]

theorem RoundTrip.staf (set : FlagSet) (t n o c z : Bool) : RoundTrip.Statement (.staf set t n o c z) := by
  intro _
  cases set <;> cases t <;> cases n <;> cases o <;> cases c <;> cases z <;> rfl

theorem RoundTrip.and (rd ra : Reg) (sf : Bool) (rb : Reg) : RoundTrip.Statement (.and rd ra sf rb) := by
  intro h
  simp only [Instr.WellFormed, decide_eq_true_eq] at h
  simp [encode, decode, decodeDataProcessing, regField, encodeDp_class, encodeDp_cmd, encodeDp_rd, encodeDp_ra,
    encodeDp_rb, encodeDp_bit3, -BitVec.getLsbD_eq_getElem, h]

theorem RoundTrip.stub (rdUsr raSys : Reg) (sf : Bool) : RoundTrip.Statement (.stub rdUsr raSys sf) := by
  intro _
  simp [encode, decode, decodeDataProcessing, regField, encodeDp_class, encodeDp_cmd, encodeDp_rd, encodeDp_ra,
    encodeDp_rb, encodeDp_bit3, -BitVec.getLsbD_eq_getElem]

theorem RoundTrip.orr (rd ra : Reg) (sf : Bool) (rb : Reg) : RoundTrip.Statement (.orr rd ra sf rb) := by
  intro h
  simp only [Instr.WellFormed, decide_eq_true_eq] at h
  simp [encode, decode, decodeDataProcessing, regField, encodeDp_class, encodeDp_cmd, encodeDp_rd, encodeDp_ra,
    encodeDp_rb, encodeDp_bit3, -BitVec.getLsbD_eq_getElem, h]

theorem RoundTrip.ldub (rdSys raUsr : Reg) (sf : Bool) : RoundTrip.Statement (.ldub rdSys raUsr sf) := by
  intro _
  simp [encode, decode, decodeDataProcessing, regField, encodeDp_class, encodeDp_cmd, encodeDp_rd, encodeDp_ra,
    encodeDp_rb, encodeDp_bit3, -BitVec.getLsbD_eq_getElem]

theorem RoundTrip.eor (rd ra : Reg) (sf : Bool) (rb : Reg) : RoundTrip.Statement (.eor rd ra sf rb) := by
  intro _
  simp [encode, decode, decodeDataProcessing, regField, encodeDp_class, encodeDp_cmd, encodeDp_rd, encodeDp_ra,
    encodeDp_rb, encodeDp_bit3, -BitVec.getLsbD_eq_getElem]

theorem RoundTrip.nand (rd ra : Reg) (sf : Bool) (rb : Reg) : RoundTrip.Statement (.nand rd ra sf rb) := by
  intro _
  simp [encode, decode, decodeDataProcessing, regField, encodeDp_class, encodeDp_cmd, encodeDp_rd, encodeDp_ra,
    encodeDp_rb, encodeDp_bit3, -BitVec.getLsbD_eq_getElem]

theorem RoundTrip.bic (rd ra : Reg) (sf : Bool) (rb : Reg) : RoundTrip.Statement (.bic rd ra sf rb) := by
  intro _
  simp [encode, decode, decodeDataProcessing, regField, encodeDp_class, encodeDp_cmd, encodeDp_rd, encodeDp_ra,
    encodeDp_rb, encodeDp_bit3, -BitVec.getLsbD_eq_getElem]

theorem RoundTrip.teq (ra rb : Reg) : RoundTrip.Statement (.teq ra rb) := by
  intro _
  simp [encode, decode, decodeDataProcessing, decodeTeq, regField, encodeDp_class, encodeDp_cmd, encodeDp_rd,
    encodeDp_ra, encodeDp_rb, encodeDp_bit3, -BitVec.getLsbD_eq_getElem]

theorem RoundTrip.stpc (mode : StpcMode) (ra : Reg) (link ie : Bool) : RoundTrip.Statement (.stpc mode ra link ie) := by
  intro _
  cases mode <;> cases link <;> cases ie <;> simp [encode, decode, decodeDataProcessing, decodeTeq, regField,
    encodeDp_class, encodeDp_cmd, encodeDp_ra, encodeDp_bit3, -BitVec.getLsbD_eq_getElem, encodeDp_rdHigh,
    encodeDp_bit0, encodeDp_bit1, encodeDp_bit2, encodeDp_bit7, StpcMode.bitX, StpcMode.bitU]

theorem RoundTrip.tst (ra rb : Reg) : RoundTrip.Statement (.tst ra rb) := by
  intro _
  simp [encode, decode, decodeDataProcessing, decodeTst, regField, encodeDp_class, encodeDp_cmd, encodeDp_rd,
    encodeDp_ra, encodeDp_rb, encodeDp_bit3, -BitVec.getLsbD_eq_getElem]

theorem RoundTrip.ldpc (rd : Reg) : RoundTrip.Statement (.ldpc rd) := by
  intro _
  simp [encode, decode, decodeDataProcessing, decodeTst, regField, encodeDp_class, encodeDp_cmd, encodeDp_rd,
    encodeDp_ra, encodeDp_rb, encodeDp_bit3, -BitVec.getLsbD_eq_getElem]

theorem RoundTrip.sft (rd ra : Reg) (sf : Bool) (type : ShiftType) : RoundTrip.Statement (.sft rd ra sf type) := by
  intro _
  simp [encode, decode, decodeDataProcessing, regField, encodeDp_class, encodeDp_cmd, encodeDp_rd, encodeDp_ra,
    encodeDp_rb, encodeDp_bit3, -BitVec.getLsbD_eq_getElem]

theorem RoundTrip.ldr (ix : Indexing) (up : Bool) (rd ra : Reg) (off : Offset) : RoundTrip.Statement (.ldr ix up rd ra off) := by
  intro h
  cases ix <;> simp_all [encode, decode, decodeMemory, regField, Indexing.bitP, Indexing.writesBack, encodeMem_class,
    encodeMem_p, encodeMem_u, encodeMem_w, encodeMem_l, encodeMem_rd, encodeMem_ra, encodeMem_i, encodeMem_off,
    -BitVec.getLsbD_eq_getElem, Instr.WellFormed]

theorem RoundTrip.str (ix : Indexing) (up : Bool) (rd ra : Reg) (off : Offset) : RoundTrip.Statement (.str ix up rd ra off) := by
  intro _
  cases ix <;> simp [encode, decode, decodeMemory, regField, Indexing.bitP, Indexing.writesBack, encodeMem_class,
    encodeMem_p, encodeMem_u, encodeMem_w, encodeMem_l, encodeMem_rd, encodeMem_ra, encodeMem_i, encodeMem_off,
    -BitVec.getLsbD_eq_getElem] 

theorem RoundTrip.swp (rd ra rb : Reg) : RoundTrip.Statement (.swp rd ra rb) := by
  intro h
  simp only [Instr.WellFormed, decide_eq_true_eq] at h
  simp [encode, decode, decodeMemory, decodeSwp, regField, encodeMem_class, encodeMem_p, encodeMem_u, encodeMem_w,
    encodeMem_l, encodeMem_rd, encodeMem_ra, encodeMem_i, encodeMem_off, -BitVec.getLsbD_eq_getElem, h]

theorem RoundTrip.b (cond : Cond) (off : BitVec 9) : RoundTrip.Statement (.b cond off) := by
  intro _
  simp [encode, decode, encodeBranch_class, encodeBranch_cond, encodeBranch_l, encodeBranch_off,
    -BitVec.getLsbD_eq_getElem]

theorem RoundTrip.bl (cond : Cond) (off : BitVec 9) : RoundTrip.Statement (.bl cond off) := by
  intro _
  simp [encode, decode, encodeBranch_class, encodeBranch_cond, encodeBranch_l, encodeBranch_off,
    -BitVec.getLsbD_eq_getElem]

theorem RoundTrip.ldil (rd : Reg) (imm : BitVec 8) : RoundTrip.Statement (.ldil rd imm) := by
  intro _
  rcases imm8_high imm with h | h <;>
    simp [encode, decode, decodeUpper, regField, encodeImm_class, encodeImm_group, encodeImm_rd, encodeImm_high,
    encodeImm_low,
      h] <;>
    rw [← h, imm8_halves]

theorem RoundTrip.ldih (rd : Reg) (imm : BitVec 8) : RoundTrip.Statement (.ldih rd imm) := by
  intro _
  rcases imm8_high imm with h | h <;>
    simp [encode, decode, decodeUpper, regField, encodeImm_class, encodeImm_group, encodeImm_rd, encodeImm_high,
    encodeImm_low,
      h] <;>
    rw [← h, imm8_halves]

theorem RoundTrip.cbr (rd ra : Reg) (bit : BitVec 4) : RoundTrip.Statement (.cbr rd ra bit) := by
  intro _
  simp [encode, decode, decodeUpper, regField, encodeBit_class, encodeBit_group, encodeBit_rd, encodeBit_ra,
    encodeBit_bit]

theorem RoundTrip.sbr (rd ra : Reg) (bit : BitVec 4) : RoundTrip.Statement (.sbr rd ra bit) := by
  intro _
  simp [encode, decode, decodeUpper, regField, encodeBit_class, encodeBit_group, encodeBit_rd, encodeBit_ra,
    encodeBit_bit]

theorem RoundTrip.ldb (rd ra : Reg) (bit : BitVec 4) : RoundTrip.Statement (.ldb rd ra bit) := by
  intro _
  simp [encode, decode, decodeUpper, regField, encodeBit_class, encodeBit_group, encodeBit_rd, encodeBit_ra,
    encodeBit_bit]

theorem RoundTrip.stb (ra : Reg) (bit : BitVec 4) : RoundTrip.Statement (.stb ra bit) := by
  intro _
  simp [encode, decode, decodeUpper, decodeStoreBit, regField, encodeBit_class, encodeBit_group, encodeBit_rd,
    encodeBit_ra,
    encodeBit_bit]

theorem RoundTrip.stbi (ra : Reg) (bit : BitVec 4) : RoundTrip.Statement (.stbi ra bit) := by
  intro _
  simp [encode, decode, decodeUpper, decodeStoreBit, regField, encodeBit_class, encodeBit_group, encodeBit_rd,
    encodeBit_ra,
    encodeBit_bit]

theorem RoundTrip.spr (ra : Reg) : RoundTrip.Statement (.spr ra) := by
  intro _
  simp [encode, decode, decodeUpper, decodeStoreBit, regField, encodeBit_class, encodeBit_group, encodeBit_rd,
    encodeBit_ra,
    encodeBit_bit]

theorem RoundTrip.spri (ra : Reg) : RoundTrip.Statement (.spri ra) := by
  intro _
  simp [encode, decode, decodeUpper, decodeStoreBit, regField, encodeBit_class, encodeBit_group, encodeBit_rd,
    encodeBit_ra,
    encodeBit_bit]

theorem RoundTrip.stbr (ra ri : Reg) : RoundTrip.Statement (.stbr ra ri) := by
  intro _
  simp [encode, decode, decodeUpper, decodeStoreBit, regField, encodeBit_class, encodeBit_group, encodeBit_rd,
    encodeBit_ra,
    encodeBit_bit3, encodeBit_ri, -BitVec.getLsbD_eq_getElem]
  cases ri <;> rfl

theorem RoundTrip.stbri (ra ri : Reg) : RoundTrip.Statement (.stbri ra ri) := by
  intro _
  simp [encode, decode, decodeUpper, decodeStoreBit, regField, encodeBit_class, encodeBit_group, encodeBit_rd,
    encodeBit_ra,
    encodeBit_bit3, encodeBit_ri, -BitVec.getLsbD_eq_getElem]
  cases ri <;> rfl

theorem RoundTrip.cdp (cp : Cp) (ca cb : CReg) (cmd : BitVec 3) : RoundTrip.Statement (.cdp cp ca cb cmd) := by
  intro _
  simp only [encode, decode, decodeUpper, regField, cpWord_class, cpWord_group, cpWord_n, cpWord_a, cpWord_b,
    cpWord_bit3,
    cpWord_cmd]
  cases cp <;> simp [Cp.toBit, Cp.ofBit]

theorem RoundTrip.mrc (cp : Cp) (rd : Reg) (ca : CReg) (cmd : BitVec 3) : RoundTrip.Statement (.mrc cp rd ca cmd) := by
  intro _
  simp only [encode, decode, decodeUpper, regField, cpWord_class, cpWord_group, cpWord_n, cpWord_a, cpWord_b,
    cpWord_bit3,
    cpWord_cmd]
  cases cp <;> simp [Cp.toBit, Cp.ofBit]

theorem RoundTrip.mcr (cp : Cp) (cd : CReg) (ra : Reg) (cmd : BitVec 3) : RoundTrip.Statement (.mcr cp cd ra cmd) := by
  intro _
  simp only [encode, decode, decodeUpper, regField, cpWord_class, cpWord_group, cpWord_n, cpWord_a, cpWord_b,
    cpWord_bit3,
    cpWord_cmd]
  cases cp <;> simp [Cp.toBit, Cp.ofBit]

theorem RoundTrip.mul (rd ra rb : Reg) : RoundTrip.Statement (.mul rd ra rb) := by
  intro _
  simp [encode, decode, decodeUpper, regField, mulWord_class, mulWord_group, mulWord_rd, mulWord_ra, mulWord_rb,
    mulWord_bit3, -BitVec.getLsbD_eq_getElem]

theorem RoundTrip.sleep (tag : BitVec 9) : RoundTrip.Statement (.sleep tag) := by
  intro _
  simp [encode, decode, decodeUpper, sleepWord_class, sleepWord_group, sleepWord_bit9, sleepWord_tag,
    -BitVec.getLsbD_eq_getElem]

theorem RoundTrip.rba (link : Bool) (cond : Cond) (rb : Reg) : RoundTrip.Statement (.rba link cond rb) := by
  intro _
  simp [encode, decode, decodeUpper, regField, encodeRegBranch_class, encodeRegBranch_group, encodeRegBranch_bit9,
    encodeRegBranch_a, encodeRegBranch_l, encodeRegBranch_cond, encodeRegBranch_rb, -BitVec.getLsbD_eq_getElem]

theorem RoundTrip.rbr (link : Bool) (cond : Cond) (rb : Reg) : RoundTrip.Statement (.rbr link cond rb) := by
  intro _
  simp [encode, decode, decodeUpper, regField, encodeRegBranch_class, encodeRegBranch_group, encodeRegBranch_bit9,
    encodeRegBranch_a, encodeRegBranch_l, encodeRegBranch_cond, encodeRegBranch_rb, -BitVec.getLsbD_eq_getElem]

theorem RoundTrip.mv (rd : Reg) (cond : Cond) (rb : Reg) : RoundTrip.Statement (.mv rd cond rb) := by
  intro _
  simp [encode, decode, decodeUpper, regField, mvWord_class, mvWord_group, mvWord_rd, mvWord_cond, mvWord_rb]

theorem RoundTrip.syscall (tag : BitVec 10) : RoundTrip.Statement (.syscall tag) := by
  intro _
  simp [encode, decode, decodeUpper, syscallWord_class, syscallWord_group, syscallWord_tag]

end Sys2Proof.Laws
end

