-- ==== Sys2Proof/Laws/Step.lean ====
section
/-! SUPPORT. What a step can do, once: the inversion of `step` and of the turns it is made of. -/

namespace Sys2Proof.Laws

open Sys2Proof.Machine

/-- An answer with its clock cycle came from an answer without. -/
theorem withClock_next {r : Result State} {t : State} (h : withClock r = .next t) : ∃ u, r = .next u ∧ t = u.clockCycle := by
  cases r with
  | next u => cases h; exact ⟨u, rfl, rfl⟩
  | fault f => cases h
  | refused q => cases h

/-- The instruction at the program counter is the decoded word of memory (R59). -/
theorem current_next {s : State} {i : Instr} (h : s.current = .next i) :
    ∃ w, s.fetch = .ok w ∧ decode w = .ok i := by
  unfold State.current at h
  split at h
  · cases h
  · rename_i w hw
    split at h
    · rename_i j hj
      cases h
      refine ⟨w, hw, ?_⟩
      simpa [decodeBytes] using hj
    · cases h

/-- An executed instruction is `exec` of it and a clock cycle (R342), behind the R55 check. -/
theorem execute_next {s t : State} {i : Instr} (h : s.execute i = .next t) :
    (s.mmu.iOld.isSome = true → s.transfersControl i = true)
      ∧ ∃ u, exec i (s.beginInstruction i) = .next u ∧ t = u.clockCycle := by
  unfold State.execute at h
  split at h
  · cases h
  · rename_i hc
    refine ⟨fun hi => ?_, withClock_next h⟩
    simpa [State.pageJustWritten, hi] using hc

/-- What a turn of the core can do: let a clock cycle pass asleep, or execute the instruction at the program counter. -/
theorem coreTurn_next {s t : State} (h : s.coreTurn = .next t) :
    (s.sleeping = true ∧ t = s.clockCycle) ∨ (s.sleeping = false ∧ ∃ i, s.current = .next i ∧ s.execute i = .next t) := by
  unfold State.coreTurn at h
  split at h
  · rename_i hs
    cases h
    exact .inl ⟨hs, rfl⟩
  · rename_i hs
    split at h
    · cases h
    · cases h
    · rename_i i hi
      exact .inr ⟨by simpa using hs, i, hi, h⟩

/-- What an interrupt turn can do: let a clock cycle pass asleep, take the interrupt that is pending, or nothing. -/
theorem interruptTurn_next {s t : State} (h : s.interruptTurn = .next t) :
    (s.sleeping = true ∧ t = s.clockCycle)
      ∨ (s.sleeping = false ∧ (s.interruptPending = none ∨ s.boundaryOpen = false) ∧ t = s)
      ∨ (s.sleeping = false ∧ s.mmu.iOld = none ∧ s.boundaryOpen = true
        ∧ ∃ k, s.interruptPending = some k ∧ t = s.takeInterrupt k) := by
  unfold State.interruptTurn at h
  split at h
  · rename_i hs
    cases h
    exact .inl ⟨hs, rfl⟩
  · rename_i hs
    have hs : s.sleeping = false := by simpa using hs
    split at h
    · rename_i hp
      cases h
      exact .inr (.inl ⟨hs, .inl hp, rfl⟩)
    · rename_i k hk
      split at h
      · rename_i hb
        cases h
        exact .inr (.inl ⟨hs, .inr (by simpa using hb), rfl⟩)
      · rename_i hb
        split at h
        · cases h
        · rename_i hp
          cases h
          exact .inr (.inr ⟨hs, by simpa [State.pageJustWritten] using hp, by simpa using hb, k, hk, rfl⟩)

/-- What waking can do (R252). -/
theorem wakeUp_cases (s : State) :
    (s.sleeping = true ∧ s.wakes = true ∧ ∃ k, s.interruptPending = some k ∧ s.wakeUp = s.takeInterrupt k)
      ∨ (s.sleeping = true ∧ s.wakes = true ∧ s.interruptPending = none ∧ s.wakeUp = { s with sleeping := false })
      ∨ ((s.sleeping = false ∨ s.wakes = false) ∧ s.wakeUp = s) := by
  unfold State.wakeUp
  cases hs : s.sleeping
  · exact .inr (.inr ⟨.inl rfl, rfl⟩)
  · cases hw : s.wakes
    · exact .inr (.inr ⟨.inr rfl, rfl⟩)
    · cases hp : s.interruptPending with
      | none => exact .inr (.inl ⟨rfl, rfl, rfl, rfl⟩)
      | some k => exact .inl ⟨rfl, rfl, k, rfl, rfl⟩

/-- What the end of a turn can do: nothing but the record of the pins, or wake a sleeping core first (R253 d, R425). -/
theorem endTurn_cases (s t : State) :
    s.endTurn t = s.showPins t
      ∨ (t.clocked = true ∧ t.sleeping = true ∧ t.wakes = true
        ∧ ((∃ k, t.interruptPending = some k ∧ s.endTurn t = s.showPins (t.takeInterrupt k))
          ∨ (t.interruptPending = none ∧ s.endTurn t = s.showPins { t with sleeping := false }))) := by
  unfold State.endTurn State.whenClocked
  cases hc : t.clocked
  · exact .inl rfl
  · rcases wakeUp_cases t with ⟨hs, hw, k, hk, e⟩ | ⟨hs, hw, hk, e⟩ | ⟨_, e⟩
    · exact .inr ⟨rfl, hs, hw, .inl ⟨k, hk, by simp [e]⟩⟩
    · exact .inr ⟨rfl, hs, hw, .inr ⟨hk, by simp [e]⟩⟩
    · exact .inl (by simp [e])

/-- An answer with the end of its turn came from an answer without. -/
theorem withEnd_next {s t : State} {r : Result State} (h : withEnd s r = .next t) : ∃ u, r = .next u ∧ t = s.endTurn u := by
  cases r with
  | next u => cases h; exact ⟨u, rfl, rfl⟩
  | fault f => cases h
  | refused q => cases h

/-- The choice of the next turn changes the script and the draws only. -/
theorem nextTurn_spec (s : State) : ∃ k d, s.nextTurn.2 = { s with script := k, draws := d } := by
  unfold State.nextTurn
  split
  · exact ⟨_, _, rfl⟩
  · split
    · exact ⟨s.script, s.draws + 1, rfl⟩
    · exact ⟨s.script, s.draws, rfl⟩

/-- Where the script says who moves, the step is that turn (R7). -/
theorem step_scripted {s : State} {k : Turn} {rest : List Turn} (h : s.script = k :: rest) :
    step s = takeTurn k { s with script := rest } := by
  simp [step, State.nextTurn, h]

/-- Output pins that did not change leave no trace in the record (R425). -/
theorem pinChanges_same {s t : State} (hp : t.pio = s.pio) (hc : t.comCtrl = s.comCtrl) (hs : t.spi = s.spi) :
    pinChanges s t = [] := by
  simp [pinChanges, State.spiCsPins, hp, hc, hs]

/-- What a step can do: nothing in a halted core, or a turn of the core, an interrupt turn, or a turn of another agent,
each with the end of its turn. -/
theorem step_next {s t : State} (h : step s = .next t) :
    (s.nextTurn.2.clocked = false ∧ t = s.nextTurn.2)
      ∨ (s.nextTurn.1 = .core ∧ s.nextTurn.2.clocked = true
        ∧ ∃ u, s.nextTurn.2.coreTurn = .next u ∧ t = s.nextTurn.2.endTurn u)
      ∨ (s.nextTurn.1 = .interrupt ∧ s.nextTurn.2.clocked = true
        ∧ ∃ u, s.nextTurn.2.interruptTurn = .next u ∧ t = s.nextTurn.2.endTurn u)
      ∨ ∃ e, s.nextTurn.1 = .agent e ∧ t = s.nextTurn.2.endTurn (agentAct e s.nextTurn.2) := by
  unfold step takeTurn at h
  split at h
  · split at h
    · exact .inr (.inl ⟨by assumption, by assumption, withEnd_next h⟩)
    · rename_i hc
      cases h
      exact .inl ⟨by simpa using hc, rfl⟩
  · split at h
    · exact .inr (.inr (.inl ⟨by assumption, by assumption, withEnd_next h⟩))
    · rename_i hc
      cases h
      exact .inl ⟨by simpa using hc, rfl⟩
  · rename_i e he
    cases h
    exact .inr (.inr (.inr ⟨e, he, rfl⟩))

end Sys2Proof.Laws
end

