-- ==== Sys2Proof/Tests/Slice0.lean ====
section
/-! SUPPORT. Tests. Every expected word, value and flag is taken from spec/ (the coding examples and examples of the
rules, spec/95_test_vectors.md, or a hand calculation from a rule's formula), none from the model's answer. Then one
witness for each statement of Obligations.lean that has hypotheses: concrete data that meets all of them together. -/

namespace Sys2Proof.Tests

open Sys2Proof.Machine

/-! ## Ill-formed terms are refused -/

theorem test_wf_sub_same : (Instr.sub .r1 .r2 true .r2).WellFormed = false := by decide
theorem test_wf_sbc_same : (Instr.sbc .r1 .r2 false .r2).WellFormed = false := by decide
theorem test_wf_and_same : (Instr.and .r1 .r2 false .r2).WellFormed = false := by decide
theorem test_wf_orr_same : (Instr.orr .r1 .r2 false .r2).WellFormed = false := by decide
theorem test_wf_ldr_base_pre : (Instr.ldr .preWriteback true .r3 .r3 (.imm 2)).WellFormed = false := by decide
theorem test_wf_ldr_base_post : (Instr.ldr .postWriteback true .r3 .r3 (.imm 2)).WellFormed = false := by decide
theorem test_wf_swp_same : (Instr.swp .r2 .r3 .r2).WellFormed = false := by decide

/-! ## Decoding: the words of the spec's coding examples, and by hand from R94 where it has none -/

theorem test_decode_arithmetic :
    decode 0x0012 = .ok (.inc .r0 .r1 false 2) ∧ decode 0x0691 = .ok (.dec .r5 .r1 false 1)
      ∧ decode 0x080B = .ok (.add .r0 .r0 true .r3) ∧ decode 0x0D52 = .ok (.adc .r2 .r5 false .r2)
      ∧ decode 0x111C = .ok (.sub .r2 .r1 true .r4) ∧ decode 0x113B = .ok (.neg .r2 .r3 true)
      ∧ decode 0x151C = .ok (.sbc .r2 .r1 true .r4) ∧ decode 0x1533 = .ok (.nec .r2 .r3 false)
      ∧ decode 0x1828 = .ok (.cmp .r2 .r0) ∧ decode 0x1D3C = .ok (.cpx false true .r3 .r4) := by decide

theorem test_decode_logical :
    decode 0x2001 = .ok (.and .r0 .r0 false .r1) ∧ decode 0x25BC = .ok (.orr .r3 .r3 true .r4)
      ∧ decode 0x2891 = .ok (.eor .r1 .r1 false .r1) ∧ decode 0x2D22 = .ok (.nand .r2 .r2 false .r2)
      ∧ decode 0x3001 = .ok (.bic .r0 .r0 false .r1) ∧ decode 0x3408 = .ok (.teq .r0 .r0)
      ∧ decode 0x382B = .ok (.tst .r2 .r3) ∧ decode 0x3CB2 = .ok (.sft .r1 .r3 false .rol) := by decide

theorem test_decode_special :
    decode 0x21A2 = .ok (.stub .r3 .r2 false) ∧ decode 0x216E = .ok (.stub .r2 .r6 true)
      ∧ decode 0x2444 = .ok (.ldub .r0 .r4 false) ∧ decode 0x18E0 = .ok (.ldsr .r1 .usrFlags)
      ∧ decode 0x1C03 = .ok (.stsr .all .r3) ∧ decode 0x1C64 = .ok (.stsr .usrFlags .r4)
      ∧ decode 0x1C24 = .ok (.stsr .aluFlags .r4) ∧ decode 0x1C71 = .ok (.staf .usr false false false false true)
      ∧ decode 0x1DD7 = .ok (.staf .sys true true true true true) ∧ decode 0x3800 = .ok (.ldpc .r0)
      ∧ decode 0x3473 = .ok (.stpc .user .r7 false true) ∧ decode 0x3470 = .ok (.stpc .keep .r7 false false) := by decide

theorem test_decode_memory :
    decode 0x50A3 = .ok (.ldr .pre true .r1 .r2 (.reg .r3)) ∧ decode 0x68A3 = .ok (.ldr .postWriteback false .r1 .r2 (.reg .r3))
      ∧ decode 0x78AA = .ok (.ldr .postWriteback true .r1 .r2 (.imm 2))
      ∧ decode 0x4E5A = .ok (.str .preWriteback false .r4 .r5 (.imm 2))
      ∧ decode 0x5658 = .ok (.str .pre true .r4 .r5 (.imm 0)) ∧ decode 0x6134 = .ok (.swp .r2 .r3 .r4) := by decide

theorem test_decode_branch :
    decode 0xBC01 = .ok (.b .al 1) ∧ decode 0xBE01 = .ok (.bl .al 1) ∧ decode 0x8200 = .ok (.bl .eq 0)
      ∧ decode 0xBDFA = .ok (.b .al 0x1FA) ∧ decode 0xF77C = .ok (.rba false .al .r4)
      ∧ decode 0xF604 = .ok (.rbr false .eq .r4) ∧ decode 0xF684 = .ok (.rbr true .eq .r4) := by decide

theorem test_decode_bits :
    decode 0xD00C = .ok (.cbr .r0 .r0 12) ∧ decode 0xD5C4 = .ok (.sbr .r3 .r4 4) ∧ decode 0xDB85 = .ok (.ldb .r7 .r0 5)
      ∧ decode 0xDC71 = .ok (.stb .r7 1) ∧ decode 0xDCF1 = .ok (.stbi .r7 1) ∧ decode 0xDD70 = .ok (.spr .r7)
      ∧ decode 0xDDF0 = .ok (.spri .r7) ∧ decode 0xDE74 = .ok (.stbr .r7 .r4)
      ∧ decode 0xDEF4 = .ok (.stbri .r7 .r4) := by decide

theorem test_decode_rest :
    decode 0xC67F = .ok (.ldil .r4 255) ∧ decode 0xC202 = .ok (.ldil .r4 2) ∧ decode 0xCA07 = .ok (.ldih .r4 7)
      ∧ decode 0xE004 = .ok (.cdp .cp0 0 0 4) ∧ decode 0xE7B1 = .ok (.cdp .cp1 7 3 1)
      ∧ decode 0xE9C1 = .ok (.mrc .cp0 .r3 4 1) ∧ decode 0xEFB8 = .ok (.mcr .cp1 7 .r3 0)
      ∧ decode 0xF012 = .ok (.mul .r0 .r1 .r2) ∧ decode 0xF59C = .ok (.sleep 412) ∧ decode 0xFA07 = .ok (.mv .r4 .eq .r7)
      ∧ decode 0xFFEA = .ok (.syscall 1002) := by decide

/-! ## One instruction on a small state -/

/-- System mode at 0x0100 with these registers and MSR, one RAM page for everything (spec/95_test_vectors.md 0). -/
def sysAt (msr : Word) (sys : Bank) : State :=
  { State.reset with
    pc := 0x0100, msr := msr, sys := sys, mmu := { State.reset.mmu with irqBase := 0, sysI := 0, sysD := 0 } }

/-- The same in user mode. -/
def usrAt (msr : Word) (usr : Bank) : State :=
  { State.reset with
    pc := 0x0100, msr := msr, usr := usr, mmu := { State.reset.mmu with irqBase := 0, sysI := 0, sysD := 0 } }

/-- A bank from its eight registers. -/
def bank (a b c d e f g h : Word) : Bank := ⟨a, b, c, d, e, f, g, h⟩

/-- One field of the next state. -/
def after {α : Type} (r : Result State) (f : State → α) : Option α :=
  match r with
  | .next t => some (f t)
  | .fault _ => none
  | .refused _ => none

/-- The refusal an instruction ends in. -/
def refusal (r : Result State) : Option Refusal :=
  match r with
  | .next _ => none
  | .fault _ => none
  | .refused q => some q

/-- The fault an instruction ends in. -/
def faults (r : Result State) : Option Fault :=
  match r with
  | .next _ => none
  | .fault f => some f
  | .refused _ => none

theorem test_incs : after (exec (.inc .r0 .r1 true 2) (sysAt 0x8000 (bank 0 0xFFFF 0 0 0 0 0 0)))
    (fun t => (t.reg .r0, t.msr, t.pc)) = some (0x0001, 0x8040, 0x0102) := by decide
theorem test_decs : after (exec (.dec .r0 .r0 true 1) (sysAt 0x8000 (bank 0 0 0 0 0 0 0 0)))
    (fun t => (t.reg .r0, t.msr)) = some (0xFFFF, 0x8140) := by decide
theorem test_adds : after (exec (.add .r0 .r0 true .r3) (sysAt 0x8000 (bank 0x7FFF 0 0 1 0 0 0 0)))
    (fun t => (t.reg .r0, t.msr)) = some (0x8000, 0x8180) := by decide
theorem test_adcs : after (exec (.adc .r2 .r5 true .r2) (sysAt 0x8040 (bank 0 0 0 0 0 0xFFFF 0 0)))
    (fun t => (t.reg .r2, t.msr)) = some (0x0000, 0x8060) := by decide
theorem test_sub_keeps_flags : after (exec (.sub .r2 .r1 false .r4) (sysAt 0x83E0 (bank 0 5 0 0 7 0 0 0)))
    (fun t => (t.reg .r2, t.msr)) = some (0xFFFE, 0x83E0) := by decide
theorem test_negs : after (exec (.neg .r2 .r3 true) (sysAt 0x8000 (bank 0 0 0 1 0 0 0 0)))
    (fun t => (t.reg .r2, t.msr)) = some (0xFFFF, 0x8140) := by decide
theorem test_sbc_borrow : after (exec (.sbc .r2 .r1 false .r4) (sysAt 0x8040 (bank 0 5 0 0 3 0 0 0)))
    (fun t => t.reg .r2) = some 0x0001 := by decide
theorem test_nec_borrow : after (exec (.nec .r2 .r3 false) (sysAt 0x8040 (bank 0 0 0 0 0 0 0 0)))
    (fun t => t.reg .r2) = some 0xFFFF := by decide
theorem test_cmp_equal : after (exec (.cmp .r2 .r0) (sysAt 0x8000 (bank 5 0 5 0 0 0 0 0))) (fun t => t.msr) = some 0x8020 := by
  decide
theorem test_cpx_table : after (exec (.cpx false true .r0 .r1) (sysAt 0x8020 (bank 0x33 5 0 0 0 0 0 0)))
    (fun t => t.msr) = some 0x8020 := by decide
theorem test_and : after (exec (.and .r0 .r0 false .r1) (sysAt 0x8000 (bank 0x1234 7 0 0 0 0 0 0))) (fun t => t.reg .r0)
    = some 0x0004 := by decide
theorem test_orrs : after (exec (.orr .r3 .r3 true .r4) (sysAt 0x8000 (bank 0 0 0 0x00F0 0x8001 0 0 0)))
    (fun t => (t.reg .r3, t.msr)) = some (0x80F1, 0x8100) := by decide
theorem test_eors_clears : after (exec (.eor .r1 .r1 true .r1) (sysAt 0x8000 (bank 0 0x5555 0 0 0 0 0 0)))
    (fun t => (t.reg .r1, t.msr)) = some (0, 0x8020) := by decide
theorem test_nand_complements : after (exec (.nand .r2 .r2 false .r2) (sysAt 0x8000 (bank 0 0 0x00FF 0 0 0 0 0)))
    (fun t => t.reg .r2) = some 0xFF00 := by decide
theorem test_bic : after (exec (.bic .r0 .r0 false .r1) (sysAt 0x8000 (bank 0xFFFF 0xFC00 0 0 0 0 0 0)))
    (fun t => t.reg .r0) = some 0x03FF := by decide
theorem test_teq_and : after (exec (.teq .r0 .r1) (sysAt 0x80C0 (bank 0xF000 0x8000 0 0 0 0 0 0))) (fun t => t.msr)
    = some 0x81C0 := by decide
theorem test_tst_xor : after (exec (.tst .r2 .r3) (sysAt 0x8000 (bank 0 0 0xFF 0xFF 0 0 0 0))) (fun t => t.msr)
    = some 0x8020 := by decide
theorem test_sfts_lsl : after (exec (.sft .r0 .r0 true .lsl) (sysAt 0x8000 (bank 0xB8C0 0 0 0 0 0 0 0)))
    (fun t => (t.reg .r0, t.msr)) = some (0x7180, 0x80C0) := by decide
theorem test_sfts_swp : after (exec (.sft .r2 .r2 true .swp) (sysAt 0x8000 (bank 0 0 0x12AB 0 0 0 0 0)))
    (fun t => (t.reg .r2, t.flag .c)) = some (0xAB12, false) := by decide
theorem test_ldub : after (exec (.ldub .r0 .r4 false)
    { sysAt 0x8000 (bank 1 2 3 4 5 6 7 8) with usr := bank 0 0 0 0 0xBEEF 0 0 0 })
    (fun t => (t.sys.get .r0, t.sys.get .r4)) = some (0xBEEF, 5) := by decide
theorem test_stub : after (exec (.stub .r3 .r2 false) (sysAt 0x8000 (bank 0 0 0x42 0 0 0 0 0)))
    (fun t => t.usr.get .r3) = some 0x0042 := by decide
theorem test_ldub_user_traps : after (exec (.ldub .r0 .r4 false) (usrAt 0x0000 (bank 0 0 0 0 0 0 0 0)))
    (fun t => (t.pc, t.sys.get .r7, t.msr)) = some (0x0006, 0x0104, 0x8000) := by decide
theorem test_ldpc : after (exec (.ldpc .r0) (sysAt 0x8000 (bank 0 0 0 0 0 0 0 0))) (fun t => t.reg .r0) = some 0x0100 := by
  decide
theorem test_stpc_gtl_r7 : after (exec (.stpc .keep .r7 true false) (sysAt 0x8000 (bank 0 0 0 0 0 0 0 0x0201)))
    (fun t => (t.pc, t.reg .r7)) = some (0x0200, 0x0102) := by decide
theorem test_stpc_retui : after (exec (.stpc .user .r7 false true) (sysAt 0x8000 (bank 0 0 0 0 0 0 0 0x0200)))
    (fun t => (t.pc, t.msr)) = some (0x0200, 0x0800) := by decide
theorem test_ldsr_usr : after (exec (.ldsr .r1 .usrFlags) (sysAt 0xA86B (bank 0 0 0 0 0 0 0 0))) (fun t => t.reg .r1)
    = some 0x000B := by decide
theorem test_stsr_alu : after (exec (.stsr .aluFlags .r4) (sysAt 0xA800 (bank 0 0 0 0 0x57FF 0 0 0))) (fun t => t.msr)
    = some 0xABFF := by decide
theorem test_staf : after (exec (.staf .usr false false false false true) (sysAt 0x801E (bank 0 0 0 0 0 0 0 0)))
    (fun t => t.msr) = some 0x8001 := by decide

/-! ## Memory -/

/-- A state with two words of RAM. -/
def ramAt (s : State) (a : Nat) (v w : Word) : State := { s with ram := Memory.loadWords [] a [v, w] }

theorem test_ldr_post : after (exec (.ldr .postWriteback true .r1 .r2 (.imm 2))
    (ramAt (sysAt 0x8000 (bank 0 0 0x0100 0 0 0 0 0)) 0x0100 0xCAFE 0)) (fun t => (t.reg .r1, t.reg .r2))
    = some (0xCAFE, 0x0102) := by decide
theorem test_ldr_odd : after (exec (.ldr .pre true .r1 .r2 (.imm 1))
    (ramAt (sysAt 0x8000 (bank 0 0 0x0200 0 0 0 0 0)) 0x0200 0xCAFE 0)) (fun t => t.reg .r1) = some 0xFECA := by decide
theorem test_str_pre_wb : after (exec (.str .preWriteback false .r4 .r5 (.imm 2))
    (sysAt 0x8000 (bank 0 0 0 0 0x1234 0x0200 0 0)))
    (fun t => (t.ram.readWord 0x01FE, t.reg .r5, t.ram.readWord 0x0200)) = some (some 0x1234, 0x01FE, none) := by decide
theorem test_swp : after (exec (.swp .r2 .r3 .r4)
    (ramAt (sysAt 0x8000 (bank 0 0 0 0x0200 0x5678 0 0 0)) 0x0200 0x1234 0x9999))
    (fun t => (t.reg .r2, t.ram.readWord 0x0200, t.ram.readWord 0x0202)) = some (0x1234, some 0x5678, some 0x9999) := by
  decide

/-! ## Branches, immediates, bits, the rest -/

theorem test_b_back : after (exec (.b .al 0x1FA) (sysAt 0x8000 (bank 0 0 0 0 0 0 0 0))) (fun t => t.pc) = some 0x00F4 := by
  decide
theorem test_bl : after (exec (.bl .al 1) (sysAt 0x8000 (bank 0 0 0 0 0 0 0 0))) (fun t => (t.pc, t.reg .r7))
    = some (0x0102, 0x0102) := by decide
theorem test_rba : after (exec (.rba false .al .r4) (sysAt 0x8000 (bank 0 0 0 0 0x0201 0 0 0))) (fun t => t.pc)
    = some 0x0200 := by decide
theorem test_rbr : after (exec (.rbr false .eq .r4) (sysAt 0x8020 (bank 0 0 0 0 0x0020 0 0 0))) (fun t => t.pc)
    = some 0x0120 := by decide
theorem test_ldil : after (exec (.ldil .r4 128) (sysAt 0x8000 (bank 0 0 0 0 0 0 0 0))) (fun t => t.reg .r4)
    = some 0xFF80 := by decide
theorem test_ldih : after (exec (.ldih .r4 7) (sysAt 0x8000 (bank 0 0 0 0 2 0 0 0))) (fun t => t.reg .r4)
    = some 0x0702 := by decide
theorem test_cbr : after (exec (.cbr .r0 .r0 12) (sysAt 0x8000 (bank 0xFFFF 0 0 0 0 0 0 0))) (fun t => t.reg .r0)
    = some 0xEFFF := by decide
theorem test_sbr : after (exec (.sbr .r3 .r4 4) (sysAt 0x8000 (bank 0 0 0 0 3 0 0 0))) (fun t => t.reg .r3)
    = some 0x0013 := by decide
theorem test_ldb : after (exec (.ldb .r7 .r0 5) (sysAt 0x8200 (bank 0 0 0 0 0 0 0 0))) (fun t => t.reg .r7)
    = some 0x0020 := by decide
theorem test_stb : after (exec (.stb .r7 1) (sysAt 0x8000 (bank 0 0 0 0 0 0 0 2))) (fun t => t.msr) = some 0x8200 := by decide
theorem test_stbi : after (exec (.stbi .r7 1) (sysAt 0x8200 (bank 0 0 0 0 0 0 0 2))) (fun t => t.msr) = some 0x8000 := by
  decide
theorem test_spr : after (exec (.spr .r7) (sysAt 0x8000 (bank 0 0 0 0 0 0 0 0x7FFF))) (fun t => t.flag .t) = some true := by
  decide
theorem test_spri : after (exec (.spri .r7) (sysAt 0x8000 (bank 0 0 0 0 0 0 0 0))) (fun t => t.flag .t) = some true := by
  decide
theorem test_stbr : after (exec (.stbr .r7 .r4) (sysAt 0x8000 (bank 0 0 0 0 0xFFF8 0 0 0x0100))) (fun t => t.flag .t)
    = some true := by decide
theorem test_stbri : after (exec (.stbri .r7 .r4) (sysAt 0x8000 (bank 0 0 0 0 0xFFF8 0 0 0x0100))) (fun t => t.flag .t)
    = some false := by decide
theorem test_mul : after (exec (.mul .r0 .r1 .r2) (sysAt 0x83E0 (bank 0 0x1234 0x10 0 0 0 0 0)))
    (fun t => (t.reg .r0, t.msr)) = some (0x2340, 0x83E0) := by decide
theorem test_mv_taken : after (exec (.mv .r4 .eq .r7) (sysAt 0x8020 (bank 0 0 0 0 9 0 0 0x1234))) (fun t => t.reg .r4)
    = some 0x1234 := by decide
theorem test_mv_kept : after (exec (.mv .r4 .eq .r7) (sysAt 0x8000 (bank 0 0 0 0 9 0 0 0x1234))) (fun t => t.reg .r4)
    = some 9 := by decide
theorem test_sleep : after (exec (.sleep 412) (sysAt 0x8000 (bank 0 0 0 0 0 0 0 0))) (fun t => (t.sleeping, t.pc))
    = some (true, 0x0102) := by decide
theorem test_sleep_woken_at_once : after (exec (.sleep 0)
    { sysAt 0xA800 (bank 0 0 0 0 0 0 0 0) with irq := { State.reset.irq with pend := 0x01 } })
    (fun t => (t.sleeping, t.pc, t.sys.get .r7)) = some (false, 0x0004, 0x0104) := by decide
theorem test_syscall : after (exec (.syscall 1002) (usrAt 0x3C1F (bank 0 0 0 0 0 0 0 0)))
    (fun t => (t.pc, t.sys.get .r7, t.msr)) = some (0x0008, 0x0104, 0xB41F) := by decide
theorem test_mrc_cp0_absent : after (exec (.mrc .cp0 .r3 4 1) (sysAt 0x8000 (bank 0 0 0 7 0 0 0 0))) (fun t => t.reg .r3)
    = some 0 := by decide
theorem test_mrc_irq_sm : after (exec (.mrc .cp1 .r0 0 0)
    { sysAt 0x8000 (bank 0 0 0 0 0 0 0 0) with irq := { mask := 0x40, conf := 0x4000, pend := 0x44 } })
    (fun t => (t.reg .r0, t.irq.pend)) = some (0x4002, 0x40) := by decide
theorem test_mcr_timer_thr : after (exec (.mcr .cp1 0 .r0 3)
    { sysAt 0x8000 (bank 0x1388 0 0 0 0 0 0 0) with timer := { cnt := 5, thr := 9, prsc := 3, pre := 2 } })
    (fun t => t.timer) = some { cnt := 0, thr := 0x1388, prsc := 3, pre := 0 } := by decide
theorem test_cdp_burst_read : after (exec (.cdp .cp1 3 3 0)
    { sysAt 0x8000 (bank 0 0 0 0 0 0 0 0) with wb := { State.reset.wb with burst := 7 } })
    (fun t => (t.wb.busy, t.wb.dir, t.wb.left)) = some (true, false, 8) := by decide

/-! ## Witnesses: data that meets the hypotheses of each statement, clause by clause

The hypotheses that only name a value (`r = …`, `target = …`) are met by the value itself. -/

/-- The reset state with one instruction word where the next fetch reads it. -/
def placed (w : Nat) : State := State.reset.withFetchWord 16 w

/-- A system-mode and a user-mode state with every register 0. -/
def sys0 : State := sysAt 0x8000 (Bank.filled 0)
def usr0 : State := usrAt 0x0000 (Bank.filled 0)

theorem witness_DecodeEncode :
    (Instr.sub .r1 .r2 true .r3).WellFormed = true ∧ (Instr.syscall 1023).WellFormed = true
      ∧ (Instr.ldr .pre true .r3 .r3 (.imm 7)).WellFormed = true := by decide
theorem witness_EncodeDecode : decode 0x0000 = .ok (.inc .r0 .r0 false 0) ∧ decode 0xFFFF = .ok (.syscall 1023) := by decide
theorem witness_StepRunsDecoded_idle :
    ((placed 0x0012).script = [] ∧ (placed 0x0012).turnOpen = false) ∧ (placed 0x0012).sleeping = false
      ∧ (placed 0x0012).fetch = .ok 0x0012 ∧ decode 0x0012 = .ok (.inc .r0 .r1 false 2)
      ∧ (placed 0x0012).mmu.iOld = none ∧ (placed 0x0012).clocked = true := by decide
theorem witness_StepRunsDecoded_scripted :
    let s := { placed 0x3470 with script := [.core], mmu := { State.reset.mmu with sysI := 0, iOld := some 0x8000 } }
    s.script = .core :: [] ∧ s.sleeping = false ∧ s.fetch = .ok 0x3470
      ∧ decode 0x3470 = .ok (.stpc .keep .r7 false false) ∧ s.transfersControl (.stpc .keep .r7 false false) = true := by
  decide
theorem witness_StepStops_fault :
    let s := { State.reset with script := [.core] }
    s.script = .core :: [] ∧ s.clocked = true ∧ s.sleeping = false ∧ s.fetch = .error (.unknownRom 0) := by decide
theorem witness_StepStops_reserved :
    let s := { placed 0xF008 with script := [.core] }
    s.sleeping = false ∧ s.fetch = .ok 0xF008 ∧ ∃ r, decode 0xF008 = .error r := ⟨by decide, by decide, _, rfl⟩
theorem witness_StepStops_page :
    let s := { placed 0x0012 with script := [.core], mmu := { State.reset.mmu with sysI := 0, iOld := some 0x8000 } }
    s.sleeping = false ∧ s.fetch = .ok 0x0012 ∧ decode 0x0012 = .ok (.inc .r0 .r1 false 2)
      ∧ s.mmu.iOld.isSome = true ∧ s.transfersControl (.inc .r0 .r1 false 2) = false := by decide
theorem witness_TurnEnd :
    State.reset.clocked = true ∧ State.reset.sleeping = false
      ∧ (State.reset.line0 = false ∧ State.reset.line1 = false)
      ∧ ({ State.reset with params := { defaultParams with bareProcessor := true },
                            pins := { State.reset.pins with ce := false } } : State).clocked = false := by decide
theorem witness_PlacedWordRuns :
    (Instr.inc .r0 .r1 false 2).WellFormed = true ∧ State.reset.script = []
      ∧ (State.reset.withFetchWord 16 (encode (.inc .r0 .r1 false 2)).toNat).turnOpen = false
      ∧ State.reset.clocked = true ∧ State.reset.sleeping = false ∧ State.reset.mmu.iOld = none := by decide
theorem witness_SubtractionsWithCarry :
    borrowOf .borrow true = true ∧ borrowOf .borrow false = false ∧ borrowOf .notBorrow true = false
      ∧ borrowOf .notBorrow false = true := by decide
theorem witness_DoubleWordArithmetic_add :
    Reg.r0 ≠ .r1 ∧ Reg.r0 ≠ .r3 ∧ Reg.r0 ≠ .r1 ∧ ∃ t u, exec (.add .r0 .r0 true .r2) sys0 = .next t
      ∧ exec (.adc .r1 .r1 true .r3) t = .next u := ⟨by decide, by decide, by decide, _, _, rfl, rfl⟩
theorem witness_DoubleWordArithmetic_compare :
    ∃ t u, exec (.cmp .r0 .r2) sys0 = .next t ∧ exec (.cpx false false .r1 .r3) t = .next u := ⟨_, _, rfl, rfl⟩
theorem witness_ConditionsAfterCompare :
    (∃ t, exec (.cmp .r0 .r1) sys0 = .next t ∧ sys0.params.subCarry = .borrow)
      ∧ ∃ t, exec (.cmp .r0 .r1) { sys0 with params := { defaultParams with subCarry := .notBorrow } } = .next t :=
  ⟨⟨_, rfl, rfl⟩, _, rfl⟩
theorem witness_UserBankTransfers : sys0.inSystem = true := by decide
theorem witness_StorePc : sys0.inSystem = true ∧ usr0.inSystem = false
    ∧ (StpcMode.keep = .keep ∧ false = false) := by decide
theorem witness_LoadMsr : sys0.inSystem = true ∧ usr0.inSystem = false ∧ MsrPart.usrFlags = .usrFlags := by decide
theorem witness_StoreMsr_runs :
    sys0.inSystem = true ∧ ¬(MsrPart.all = .all ∧ (sys0.reg .r0).getLsbD 15 = false ∧ sys0.mmu.usrI ≠ sys0.mmu.sysI) := by
  decide
theorem witness_StoreMsr_refused :
    State.reset.inSystem = true ∧ (State.reset.reg .r0).getLsbD 15 = false ∧ State.reset.mmu.usrI ≠ State.reset.mmu.sysI := by
  decide
theorem witness_StoreFlagsImmediate : sys0.inSystem = true ∧ usr0.inSystem = false ∧ FlagSet.usr = .usr := by decide
theorem witness_MemoryMap :
    (sys0.inSystem = true ∧ sys0.mmu.dOld = [] ∧ sys0.mmu.iOld = none) ∧ (usr0.inSystem = false ∧ usr0.mmu.iOld = none)
      ∧ (0x8000#16).getLsbD 15 = true ∧ (0x7FFF#16).getLsbD 15 = false ∧ sys0.params.bareProcessor = false := by decide
theorem witness_LoadRegister :
    (ramAt sys0 0xFFE 0xCAFE 0).wordAt (ramAt sys0 0xFFE 0xCAFE 0).dataPage.1 0x0FFF = .ok 0xCAFE
      ∧ (ramAt sys0 0 0xCAFE 0).wordAt (ramAt sys0 0 0xCAFE 0).dataPage.1 0 = .ok 0xCAFE
      ∧ (Indexing.preWriteback ≠ .pre ∧ Reg.r1 ≠ .r2) := by decide
theorem witness_StoreRegister :
    inRom sys0.dataPage.1 = false
      ∧ sys0.hitsFetched sys0.iPage sys0.dataPage.1 (sys0.accessAddress .pre true .r1 (.imm 7)) = false := by decide
theorem witness_SwapMemory :
    let s := ramAt sys0 0 0x1234 0
    Reg.r2 ≠ .r4 ∧ inRom s.dataPage.1 = false ∧ s.hitsFetched s.iPage s.dataPage.1 (s.reg .r3) = false
      ∧ s.wordAt s.dataPage.1 (s.reg .r3) = .ok 0x1234 := by decide
theorem witness_MemoryStops :
    Indexing.postWriteback ≠ .pre ∧ inRom State.reset.dataPage.1 = true
      ∧ (let s := sysAt 0x8000 (bank 0 0x0102 0 0 0 0 0 0)
        inRom s.dataPage.1 = false
          ∧ s.hitsFetched s.iPage s.dataPage.1 (s.accessAddress .postWriteback true .r1 (.imm 0)) = true)
      ∧ sys0.wordAt sys0.dataPage.1 (sys0.accessAddress .pre true .r1 (.imm 0)) = .error (.unwrittenRam 0)
      ∧ (Reg.r0 ≠ .r1
        ∧ sys0.wordAt sys0.dataPage.1 (sys0.accessAddress .postWriteback true .r1 (.imm 0)) = .error (.unwrittenRam 0))
      ∧ (Reg.r0 ≠ .r2 ∧ sys0.wordAt sys0.dataPage.1 (sys0.reg .r1) = .error (.unwrittenRam 0))
      ∧ (State.reset.withRom [0x1234]).wordAt (State.reset.withRom [0x1234]).dataPage.1
          ((State.reset.withRom [0x1234]).reg .r1) = .ok 0x1234
      ∧ (let s := ramAt (sysAt 0x8000 (bank 0 0x0104 0 0 0 0 0 0)) 0x0104 0x1234 0
        s.wordAt s.dataPage.1 (s.reg .r1) = .ok 0x1234 ∧ inRom s.dataPage.1 = false
          ∧ s.hitsFetched s.iPage s.dataPage.1 (s.reg .r1) = true) := by decide
theorem witness_LoadAfterStore :
    let s := ramAt sys0 0 0x1234 0
    s.mmu.dOld = [] ∧ (∃ t, exec (.str .preWriteback true .r4 .r5 (.imm 7)) s = .next t
        ∧ ramAddress s.params s.dPage 6 = ramAddress s.params s.dPage 7
        ∧ t.accessAddress .pre false .r5 (.imm 1) = 6 ∧ t.accessAddress .postWriteback true .r5 (.imm 1) = 7
        ∧ Reg.r0 ≠ .r5)
      ∧ ∃ t, exec (.swp .r2 .r3 .r4) s = .next t ∧ t.reg .r3 = 0 ∧ Reg.r0 ≠ .r1
        ∧ t.hitsFetched t.iPage t.dataPage.1 0 = false :=
  ⟨rfl, ⟨_, rfl, by decide, by decide, by decide, by decide⟩, _, rfl, by decide, by decide, by decide⟩
theorem witness_RelativeBranches : sys0.cond .al = true ∧ sys0.cond .eq = false := by decide
theorem witness_RegisterBranches : sys0.cond .ne = true ∧ sys0.cond .eq = false := by decide
theorem witness_Multiply :
    sys0.params.mulPresent = true
      ∧ ({ sys0 with params := { defaultParams with mulPresent := false } } : State).params.mulPresent = false := by decide
theorem witness_ExternalCoprocessor :
    sys0.inSystem = true ∧ (usr0.msr.getLsbD 10 = false ∧ usr0.params.cp0Present = false)
      ∧ ({ sys0 with params := { defaultParams with cp0Present := true } } : State).params.cp0Present = true := by decide
theorem witness_SysRegisterReads :
    sys0.inSystem = true ∧ ((0#16 : Word) = 0 ∧ (3 : BitVec 3) = 3 ∧ (6 : BitVec 3) ≤ 6 ∧ (4 : BitVec 3) ≤ 7)
      ∧ ∀ i, i < 16 → (0#16 : Word).getLsbD i
          = if i = 3 then sys0.spi.busy else if i = 5 then sys0.uart.txBusy else sys0.comCtrl.getLsbD i := by decide
theorem witness_InterruptAcknowledge :
    (sys0.inSystem = true ∧ sys0.irq.pend = 0) ∧ (0x80#8).getLsbD 7 = true ∧ (∀ j, j < 7 → (0x80#8).getLsbD j = false)
      ∧ (0x81#8).getLsbD 0 = true := by decide
theorem witness_DeviceReads :
    sys0.inSystem = true ∧ sys0.lfsr.poly.getLsbD 15 = false ∧ (0x8000#16).getLsbD 15 = true ∧ sys0.spi.busy = false
      ∧ sys0.wb.busy = false ∧ sys0.wb.aborted = false ∧ sys0.wb.rx = []
      ∧ ({ sys0.wb with rx := [5] } : Wishbone).rx = 5 :: [] := by decide
theorem witness_SysRegisterWrites :
    sys0.inSystem = true ∧ (4 : BitVec 3) ≤ 7 ∧ (6 : BitVec 3) ≤ 7 ∧ sys0.wb.busy = false
      ∧ sys0.lfsr.poly.getLsbD 15 = false := by decide
theorem witness_DeviceWrites :
    sys0.inSystem = true ∧ sys0.spi.busy = false
      ∧ (let s := { sys0 with comCtrl := 0x0040 }
        s.comCtrl.getLsbD 6 = true ∧ s.uart.txBusy = false)
      ∧ sys0.wb.busy = false ∧ sys0.wb.aborted = false ∧ sys0.wb.tx.length < sys0.params.wbFifoDepth
      ∧ (let w := { sys0.wb with burst := 31, tx := List.replicate 32 0 }
        w.burst.toNat + sys0.params.wbBurstBias.val ≤ sys0.params.wbFifoDepth
          ∧ w.burst.toNat + sys0.params.wbBurstBias.val ≤ w.tx.length) := by decide
theorem witness_DeviceStops :
    sys0.inSystem = true ∧ (7 : BitVec 3) ≠ 3 ∧ (0 : BitVec 3) ≠ 3 ∧ sys0.comCtrl.getLsbD 6 = false
      ∧ (0x0040#16).getLsbD 6 = true ∧ ({ sys0.uart with txBusy := true } : Uart).txBusy = true
      ∧ ({ sys0.spi with busy := true } : Spi).busy = true
      ∧ (let w := { sys0.wb with busy := true }
        w.busy = true ∧ w.dir = false)
      ∧ (let w := { sys0.wb with aborted := true }
        w.busy = false ∧ w.aborted = true ∧ w.burst.toNat + sys0.params.wbBurstBias.val ≤ sys0.params.wbFifoDepth)
      ∧ (let w := { sys0.wb with tx := List.replicate 32 0 }
        w.busy = false ∧ w.aborted = false ∧ sys0.params.wbFifoDepth ≤ w.tx.length)
      ∧ (let w := { sys0.wb with burst := 32 }
        sys0.params.wbFifoDepth < w.burst.toNat + sys0.params.wbBurstBias.val)
      ∧ sys0.wb.tx.length < sys0.wb.burst.toNat + sys0.params.wbBurstBias.val
      ∧ (2 : BitVec 3) ≤ 2 ∧ (1 : BitVec 3) < 2 := by decide
/-- A sleeping machine on the bare processor with both lines active, and X0, X1, GX as the MSR says. -/
def asleep (msr : Word) : State :=
  { sysAt msr (Bank.filled 0) with
    sleeping := true, script := [.core], params := { defaultParams with bareProcessor := true },
    pins := { State.reset.pins with critical := true }, irq := { State.reset.irq with pend := 0x80 } }

theorem witness_SleepAndWake_exec :
    sys0.inSystem = true ∧ ((asleep 0x8800).line0 = false ∧ (asleep 0x8800).line1 = false)
      ∧ ((asleep 0xA000).line1 = true ∧ (asleep 0xA000).msr.getLsbD 11 = false)
      ∧ ((asleep 0xB800).line0 = true ∧ (asleep 0xB800).msr.getLsbD 11 = true)
      ∧ ((asleep 0xA800).line0 = false ∧ (asleep 0xA800).line1 = true ∧ (asleep 0xA800).msr.getLsbD 11 = true) := by decide
theorem witness_SleepAndWake_turn :
    (asleep 0x8000).script = .core :: [] ∧ (asleep 0x8000).sleeping = true
      ∧ (let c := fun msr => State.clockCycle { asleep msr with script := [] }
        (c 0x8800).sleeping = true ∧ (c 0x8800).clocked = true ∧ ((c 0x8800).line0 = false ∧ (c 0x8800).line1 = false)
          ∧ ((c 0x9000).line0 = true ∧ (asleep 0x9000).msr.getLsbD 11 = false)
          ∧ ((c 0xB800).line0 = true ∧ (asleep 0xB800).msr.getLsbD 11 = true)
          ∧ ((c 0xA800).line0 = false ∧ (c 0xA800).line1 = true ∧ (asleep 0xA800).msr.getLsbD 11 = true))
      ∧ (let c := agentAct (.criticalPin true) { asleep 0x9800 with script := [] }
        c.sleeping = true ∧ c.clocked = true ∧ c.line0 = true) := by decide
theorem witness_UserModeTraps :
    usr0.inSystem = false ∧ systemOnly (.ldub .r0 .r0 false) = true ∧ systemOnly (.stub .r0 .r0 false) = true
      ∧ systemOnly (.ldsr .r0 .sysFlags) = true ∧ systemOnly (.stsr .all .r0) = true
      ∧ systemOnly (.staf .sys false false false false false) = true ∧ systemOnly (.stpc .exchange .r0 false false) = true
      ∧ systemOnly (.stpc .keep .r0 false true) = true ∧ systemOnly (.cdp .cp1 0 0 0) = true
      ∧ systemOnly (.mrc .cp1 .r0 0 0) = true ∧ systemOnly (.mcr .cp1 0 .r0 0) = true ∧ systemOnly (.sleep 0) = true
      ∧ (usesCp0 (.cdp .cp0 0 0 0) = true ∧ (usrAt 0x0400 (Bank.filled 0)).msr.getLsbD 10 = true) := by decide
/-- The machine of `asleep`, awake at a boundary where the script has an interrupt turn. -/
def atBoundary (msr : Word) (b : Boundary) : State :=
  { asleep msr with sleeping := false, script := [.interrupt], boundary := b }

theorem witness_InterruptTaken :
    let s := fun msr => atBoundary msr .free
    (s 0xB800).script = .interrupt :: [] ∧ (s 0xB800).clocked = true ∧ (s 0xB800).sleeping = false
      ∧ (s 0xB800).boundaryOpen = true ∧ (s 0xB800).mmu.iOld = none
      ∧ ((s 0xB800).msr.getLsbD 11 = true ∧ (s 0xB800).line0 = true)
      ∧ ((s 0xA800).msr.getLsbD 11 = true ∧ (s 0xA800).line0 = false ∧ (s 0xA800).line1 = true)
      ∧ (s 0xB000).msr.getLsbD 11 = false ∧ ((s 0x8800).line0 = false ∧ (s 0x8800).line1 = false) := by decide
theorem witness_InterruptTaken_page :
    let s := { atBoundary 0xB800 .free with mmu := { State.reset.mmu with iOld := some 0x8000 } }
    s.boundaryOpen = true ∧ s.mmu.iOld.isSome = true ∧ s.msr.getLsbD 11 = true ∧ s.line0 = true := by decide
/-- Word 0x0012 (`INC R0, R1, #2`) stands at the program counter. -/
theorem witness_InterruptTaken_closed :
    (atBoundary 0xB800 .afterBranch).boundaryOpen = false
      ∧ (let s := fun r => (atBoundary 0xB800 (.afterLoad r)).withFetchWord 16 0x0012
        (s .r1).fetch = .ok 0x0012 ∧ decode 0x0012 = .ok (.inc .r0 .r1 false 2)
          ∧ (s .r1).boundaryOpen = false ∧ (s .r0).boundaryOpen = true)
      ∧ sys0.transfersControl (.b .al 1) = true ∧ sys0.transfersControl (.b .eq 1) = false := by decide
theorem witness_TrapReturn :
    sys0.pc.getLsbD 0 = false ∧ usr0.pc.getLsbD 0 = false ∧ usr0.inSystem = false ∧ sys0.inSystem = true
      ∧ sys0.mmu.irqBase = sys0.mmu.sysI ∧ sys0.mmu.irqBase = sys0.mmu.sysD := by decide
theorem witness_UserModeConfined :
    usr0.inSystem = false ∧ (∃ t, exec (.sleep 0) usr0 = .next t) ∧ (∃ t, exec (.syscall 0) usr0 = .next t)
      ∧ ∃ t, exec (.str .pre true .r0 .r1 (.imm 0)) usr0 = .next t := ⟨rfl, ⟨_, rfl⟩, ⟨_, rfl⟩, _, rfl⟩
theorem witness_UserNoninterference :
    let b := { usr0 with sys := Bank.filled 0xFFFF, msr := 0x7BE0, irq := { mask := 0xFF, conf := 1, pend := 2 } }
    SameForUser usr0 b ∧ (∃ t, exec (.inc .r0 .r1 true 2) usr0 = .next t)
      ∧ (∃ f, exec (.ldr .pre true .r0 .r1 (.imm 0)) usr0 = .fault f)
      ∧ ∃ r, exec (.swp .r2 .r3 .r2) usr0 = .refused r :=
  ⟨⟨by decide, by decide, rfl, rfl, by decide, by decide, rfl, rfl, rfl, rfl, rfl, rfl⟩, ⟨_, rfl⟩, ⟨_, rfl⟩, _, rfl⟩
/-- A user program at address 0 of RAM page 0 that executes one system call. -/
def callsSystem : State := { usr0 with pc := 0, script := [.core], ram := Memory.loadWords [] 0 [0xFC00] }
theorem witness_SystemModeEntry :
    callsSystem.inSystem = false ∧ after (step callsSystem) (fun t => t.inSystem) = some true
      ∧ after (step { callsSystem with script := [.agent .reset] }) (fun t => t.inSystem) = some true := by decide
theorem witness_StepKeepsInv : (placed 0x0012).Inv ∧ after (step (placed 0x0012)) (fun t => t.pc) = some 0x0002 :=
  ⟨⟨by decide, by decide, by decide, by decide, by decide, by decide, by decide, by decide, by decide, by decide,
    by decide, by decide, by decide, by decide⟩, by decide⟩
theorem witness_ConstantState :
    after (step { callsSystem with mmu := { callsSystem.mmu with iLink := 1 } }) (fun t => t.mmu.iLink) = some 0 := by decide
theorem witness_PageWrites : sys0.inSystem = true ∧ sys0.mmu.iOld = none ∧ sys0.mmu.dOld = [] := by decide
theorem witness_TimerPeriod :
    let t : Timer := { cnt := 0, thr := 1, prsc := 1, pre := 0 }
    State.reset.timer.thr = 0 ∧ t.thr ≠ 0 ∧ t.cnt = 0 ∧ t.pre = 0 ∧ (timerRun 1 t).2 = 0 ∧ (timerRun 2 t).2 = 1 := by decide
/-- The bare processor with its clock halted by CE_I, and these turns to come. -/
def halted (script : List Turn) : State :=
  { asleep 0x8000 with pins := { (asleep 0x8000).pins with ce := false, irq0 := true, pioIn := 1 }, script := script }

theorem witness_ClockCycle :
    let s := { sys0 with script := [.agent .clock], timer := { cnt := 0, thr := 1, prsc := 0, pre := 0 } }
    s.script = .agent .clock :: [] ∧ s.clocked = true ∧ s.sleeping = false ∧ s.timer.thr ≠ 0 ∧ sys0.timer.thr = 0
      ∧ after (step s) (fun t => t.timer.cnt) = some 0 := by decide
theorem witness_ClockCycle_halted :
    (halted [.core]).script = .core :: [] ∧ (halted [.core]).clocked = false
      ∧ (halted []).pins.pioIn ≠ (halted []).seen.pioIn := by decide
theorem witness_DeviceEvents :
    sys0.clocked = true ∧ sys0.comCtrl.getLsbD 6 = false ∧ (0x0040#16).getLsbD 6 = true ∧ sys0.uart.rxReady = false
      ∧ ({ sys0.uart with rxReady := true } : Uart).rxReady = true
      ∧ ({ sys0.uart with txBusy := true } : Uart).txBusy = true ∧ ({ sys0.spi with busy := true } : Spi).busy = true
      ∧ (1 : Word) ≠ sys0.seen.pioIn ∧ (0 : Word) = sys0.seen.pioIn ∧ sys0.params.bareProcessor = false
      ∧ (asleep 0x8000).clocked = true ∧ (asleep 0x8000).params.bareProcessor = true ∧ (0x7FFF#16).getLsbD 15 = false := by
  decide
theorem witness_WishboneBurst :
    let s := { sys0 with wb := { sys0.wb with burst := 31, tx := List.replicate 32 7 } }
    s.inSystem = true ∧ s.wb.busy = false ∧ s.wb.aborted = false ∧ 1 ≤ s.wb.burst.toNat + s.params.wbBurstBias.val
      ∧ (∃ t, exec (.cdp .cp1 3 3 0) s = .next t) ∧ s.wb.rx.length + 32 ≤ s.params.wbFifoDepth
      ∧ ∃ t, exec (.cdp .cp1 3 3 1) s = .next t :=
  ⟨by decide, by decide, by decide, by decide, ⟨_, rfl⟩, by decide, _, rfl⟩
theorem witness_WishboneBurst_end :
    let s := { sys0 with wb := { sys0.wb with busy := true, left := 1, enErr := true } }
    s.clocked = true ∧ s.wb.busy = true ∧ s.wb.left ≠ 0 ∧ WbReply.err ≠ .timeout := by decide

end Sys2Proof.Tests
end

section
/-! PROOFS. The fetch, a turn of the core that executes, and the hardware reset (O5, O8, O52). -/

namespace Sys2Proof.Proofs

open Sys2Proof.Machine Sys2Proof.Laws

/-! ## Decoding what was encoded -/

/-- The round trips of the single instructions, put together (R94). -/
theorem decode_encode : ∀ i : Instr, i.WellFormed = true → decode (encode i) = .ok i
  | .inc .., h => RoundTrip.inc _ _ _ _ h | .dec .., h => RoundTrip.dec _ _ _ _ h
  | .add .., h => RoundTrip.add _ _ _ _ h | .adc .., h => RoundTrip.adc _ _ _ _ h
  | .sub .., h => RoundTrip.sub _ _ _ _ h | .neg .., h => RoundTrip.neg _ _ _ h
  | .sbc .., h => RoundTrip.sbc _ _ _ _ h | .nec .., h => RoundTrip.nec _ _ _ h | .cmp .., h => RoundTrip.cmp _ _ h
  | .ldsr .., h => RoundTrip.ldsr _ _ h | .cpx .., h => RoundTrip.cpx _ _ _ _ h | .stsr .., h => RoundTrip.stsr _ _ h
  | .staf .., h => RoundTrip.staf _ _ _ _ _ _ h | .and .., h => RoundTrip.and _ _ _ _ h
  | .stub .., h => RoundTrip.stub _ _ _ h | .orr .., h => RoundTrip.orr _ _ _ _ h
  | .ldub .., h => RoundTrip.ldub _ _ _ h | .eor .., h => RoundTrip.eor _ _ _ _ h
  | .nand .., h => RoundTrip.nand _ _ _ _ h | .bic .., h => RoundTrip.bic _ _ _ _ h
  | .teq .., h => RoundTrip.teq _ _ h | .stpc .., h => RoundTrip.stpc _ _ _ _ h | .tst .., h => RoundTrip.tst _ _ h
  | .ldpc .., h => RoundTrip.ldpc _ h | .sft .., h => RoundTrip.sft _ _ _ _ h
  | .ldr .., h => RoundTrip.ldr _ _ _ _ _ h | .str .., h => RoundTrip.str _ _ _ _ _ h
  | .swp .., h => RoundTrip.swp _ _ _ h | .b .., h => RoundTrip.b _ _ h | .bl .., h => RoundTrip.bl _ _ h
  | .ldil .., h => RoundTrip.ldil _ _ h | .ldih .., h => RoundTrip.ldih _ _ h | .cbr .., h => RoundTrip.cbr _ _ _ h
  | .sbr .., h => RoundTrip.sbr _ _ _ h | .ldb .., h => RoundTrip.ldb _ _ _ h | .stb .., h => RoundTrip.stb _ _ h
  | .stbi .., h => RoundTrip.stbi _ _ h | .spr .., h => RoundTrip.spr _ h | .spri .., h => RoundTrip.spri _ h
  | .stbr .., h => RoundTrip.stbr _ _ h | .stbri .., h => RoundTrip.stbri _ _ h
  | .cdp .., h => RoundTrip.cdp _ _ _ _ h | .mrc .., h => RoundTrip.mrc _ _ _ _ h
  | .mcr .., h => RoundTrip.mcr _ _ _ _ h | .mul .., h => RoundTrip.mul _ _ _ h | .sleep .., h => RoundTrip.sleep _ h
  | .rba .., h => RoundTrip.rba _ _ _ h | .rbr .., h => RoundTrip.rbr _ _ _ h | .mv .., h => RoundTrip.mv _ _ _ h
  | .syscall .., h => RoundTrip.syscall _ h

/-! ## The fetch -/

/-- The bytes of a fetched word decode as the word (R57, R59). -/
theorem current_eq_next {s : State} {w : Word} {i : Instr} (hw : s.fetch = .ok w) (hd : decode w = .ok i) :
    s.current = .next i := by
  simp [State.current, hw, decodeBytes, hd]

/-- Placing a word touches the memories only. -/
theorem withFetchWord_frame (s : State) (n w : Nat) :
    ∃ ram rom, s.withFetchWord n w = { s with ram := ram, rom := rom } := by
  unfold State.withFetchWord State.placeWord
  dsimp only
  split
  · exact ⟨s.ram, _, rfl⟩
  · exact ⟨_, s.rom, rfl⟩

/-- The next fetch reads the placed word, from the ROM or the RAM as the page of the fetch says (R53, R54, R59). -/
theorem fetch_withFetchWord (s : State) (w : Word) : (s.withFetchWord 16 w.toNat).fetch = .ok w := by
  have hw : BitVec.ofNat 16 (w.toNat % 2 ^ 16) = w := by
    rw [Nat.mod_eq_of_lt w.isLt, BitVec.ofNat_toNat, BitVec.setWidth_eq]
  unfold State.withFetchWord State.placeWord
  rw [hw]
  cases hp : inRom s.fetchPage with
  | true =>
    show State.wordAt { s with rom := s.rom.writeWord (romAddress s.pc) w } s.fetchPage s.pc = .ok w
    simp [State.wordAt, hp, readWord_writeWord_same]
  | false =>
    show State.wordAt { s with ram := s.ram.writeWord (ramAddress s.params s.fetchPage s.pc) w } s.fetchPage s.pc = .ok w
    simp [State.wordAt, hp, readWord_writeWord_same]

/-! ## A turn of the core that executes -/

/-- Without a script and with nothing open the core moves (R7). -/
theorem step_idle {s : State} (hs : s.script = []) (ho : s.turnOpen = false) : step s = takeTurn .core s := by
  simp [step, State.nextTurn, hs, ho]

/-- Behind no write of the current I-page any instruction may stand, behind one a taken transfer (R55). -/
theorem execute_eq {s : State} {i : Instr} (h : s.mmu.iOld = none ∨ s.transfersControl i = true) :
    s.execute i = withClock (exec i (s.beginInstruction i)) := by
  unfold State.execute State.pageJustWritten
  rcases h with h | h <;> simp [h]

/-- A core that is awake executes the instruction it fetches. -/
theorem takeTurn_core_eq {s : State} {w : Word} {i : Instr} (hc : s.clocked = true) (hs : s.sleeping = false)
    (hw : s.fetch = .ok w) (hd : decode w = .ok i) (hp : s.mmu.iOld = none ∨ s.transfersControl i = true) :
    takeTurn .core s = withEnd s (withClock (exec i (s.beginInstruction i))) := by
  simp [takeTurn, hc, State.coreTurn, hs, current_eq_next hw hd, execute_eq hp]

/-- Settles O5: the script makes no difference to what the core fetches and executes. -/
theorem stepRunsDecoded : Obligations.StepRunsDecoded := by
  unfold Obligations.StepRunsDecoded
  intro s u w i hturn hc hs hw hd hp
  rcases hturn with ⟨rest, hscript, rfl⟩ | ⟨hscript, hopen, rfl⟩
  · rw [step_scripted hscript]
    exact takeTurn_core_eq hc hs hw hd hp
  · rw [step_idle hscript hopen]
    exact takeTurn_core_eq hc hs hw hd hp

/-- Settles O8: the placed word is fetched and decodes to its instruction, so O5 applies to the state it stands in. -/
theorem placedWordRuns : Obligations.PlacedWordRuns := by
  unfold Obligations.PlacedWordRuns
  intro s u i hwf hscript hu hopen hc hs hp
  have hfetch : u.fetch = .ok (encode i) := hu ▸ fetch_withFetchWord s (encode i)
  obtain ⟨ram, rom, hframe⟩ := withFetchWord_frame s 16 (encode i).toNat
  rw [hframe] at hu
  subst hu
  exact stepRunsDecoded _ _ _ _ (.inr ⟨hscript, hopen, rfl⟩) hc hs hfetch (decode_encode i hwf) (.inl hp)

/-! ## The reset -/

/-- The two lowest pins of SYS_IN_I as a read of com_sys_io shows them (R392). -/
theorem readSysIo_bootPins (s : State) : s.readSysIo.extractLsb' 0 2 = s.pins.sysIn.extractLsb' 0 2 := by
  unfold State.readSysIo
  rw [BitVec.extractLsb'_append_eq_ite]
  simp

/-- BOOT_CONFIG stands on SYS_IN_I(1:0) in the reset state (R3, R427). -/
theorem resetWith_bootPins (p : Params) : (State.resetWith p).readSysIo.extractLsb' 0 2 = p.bootConfig := by
  rw [readSysIo_bootPins]
  show (p.bootConfig.zeroExtend 8).extractLsb' 0 2 = p.bootConfig
  ext i hi
  have h8 : i < 8 := by omega
  simp [h8, BitVec.getLsbD_eq_getElem hi]

/-- BOOT_CONFIG stands on SYS_IN_I(1:0) after the hardware reset, whatever the host drives there (R3, R427). -/
theorem hardReset_bootPins (s : State) : s.hardReset.readSysIo.extractLsb' 0 2 = s.params.bootConfig := by
  rw [readSysIo_bootPins]
  show (s.pins.sysIn.extractLsb' 2 6 ++ s.params.bootConfig : Byte).extractLsb' 0 2 = s.params.bootConfig
  rw [BitVec.extractLsb'_append_eq_ite]
  simp

/-- Settles O52: the hardware reset is the reset state of its parameters in every register of R32's table. -/
theorem resetValues : Obligations.ResetValues := by
  unfold Obligations.ResetValues
  refine ⟨?_, rfl, fun s => ⟨⟨fun _ => rfl, fun _ => rfl⟩, rfl⟩⟩
  have uartOff : (0#16).getLsbD 6 = false := BitVec.getLsbD_zero
  intro s t p ht
  rcases ht with rfl | rfl <;>
    refine ⟨rfl, rfl, rfl, rfl, rfl, rfl, rfl, rfl, rfl, rfl, uartOff, rfl, rfl, rfl, rfl, rfl, rfl, ?_⟩
  · exact resetWith_bootPins p
  · exact hardReset_bootPins s

end Sys2Proof.Proofs
end

section
/-! PROOFS. What no step changes: the boot ROM, the parameters, and outside trap entry the page link registers (O55). -/

namespace Sys2Proof.Proofs

open Sys2Proof.Machine Sys2Proof.Laws

/-! ## The page link registers in the coprocessor transactions -/

/-- The page link registers, of the I-page and of the D-page (R366). -/
def pageLinks (s : State) : Word × Word := (s.mmu.iLink, s.mmu.dLink)

theorem pageLinks_of_mmu {s t : State} (h : t.mmu = s.mmu) : pageLinks t = pageLinks s := by simp [pageLinks, h]

theorem catchUpLfsr_mmu (s : State) : s.catchUpLfsr.mmu = s.mmu := by unfold State.catchUpLfsr; split <;> rfl

theorem pageLinks_readLfsr (s : State) : pageLinks s.readLfsr.2 = pageLinks s := by
  unfold State.readLfsr
  split
  · exact pageLinks_of_mmu (catchUpLfsr_mmu s)
  · rfl

theorem pageLinks_readIrqSm (s : State) : pageLinks s.readIrqSm.2 = pageLinks s := by
  unfold State.readIrqSm; split <;> rfl

theorem pageLinks_readSpi (s : State) : pageLinks s.readSpi.2 = pageLinks s := by
  unfold State.readSpi; split <;> rfl

theorem pageLinks_popRx {s : State} {x : Word × State} (h : s.popRx = .ok x) : pageLinks x.2 = pageLinks s := by
  unfold State.popRx at h
  repeat' split at h
  all_goals cases h
  all_goals rfl

/-- No read of the system coprocessor writes a page link register (R331). -/
theorem pageLinks_sysRead {s : State} {m r : BitVec 3} {x : Word × State} (h : s.sysRead m r = .ok x) :
    pageLinks x.2 = pageLinks s := by
  unfold State.sysRead at h
  split at h
  -- irq_sm, lfsr_data, spi_data and rtx_fifo have reads of their own; every other arm is a field of the state.
  case h_1 => cases h; exact pageLinks_readIrqSm s
  case h_6 => cases h; exact pageLinks_readLfsr s
  case h_19 => cases h; exact pageLinks_readSpi s
  case h_28 => exact pageLinks_popRx h
  all_goals cases h; rfl

/-- No write to the system coprocessor writes a page link register: they are read-only (R331). -/
theorem pageLinks_sysWrite {s t : State} {m r : BitVec 3} {v : Word} (h : s.sysWrite m r v = .ok t) :
    pageLinks t = pageLinks s := by
  simp only [State.sysWrite, State.writeUart, State.writeComCtrl, State.writeSpi, State.writeSpiCs, State.writeWbCtrl,
    State.writeWbReg, State.pushTx] at h
  split at h
  -- A write of lfsr_poly first lets the register run on.
  case h_7 => cases h; exact pageLinks_of_mmu (catchUpLfsr_mmu s)
  all_goals repeat' split at h
  all_goals cases h
  all_goals rfl

theorem pageLinks_wishboneCommand {s t : State} {c : BitVec 3} (h : s.wishboneCommand c = .ok t) :
    pageLinks t = pageLinks s := by
  unfold State.wishboneCommand at h
  repeat' split at h
  all_goals cases h
  all_goals rfl

theorem pageLinks_cp0Transaction (s : State) (o : HostOutput) : pageLinks (s.cp0Transaction o) = pageLinks s := by
  unfold State.cp0Transaction; split <;> rfl

theorem pageLinks_cpRead {s : State} {cp : Cp} {rd r c : BitVec 3} {x : Word × State} (h : s.cpRead cp rd r c = .ok x) :
    pageLinks x.2 = pageLinks s := by
  cases cp with
  | cp1 => exact pageLinks_sysRead h
  | cp0 =>
    unfold State.cpRead at h
    dsimp only at h
    split at h
    · cases h; exact pageLinks_cp0Transaction s.drawn _
    · cases h; rfl

theorem pageLinks_cpWrite {s t : State} {cp : Cp} {r ra c : BitVec 3} {v : Word} (h : s.cpWrite cp r ra c v = .ok t) :
    pageLinks t = pageLinks s := by
  cases cp with
  | cp1 => exact pageLinks_sysWrite h
  | cp0 => cases h; exact pageLinks_cp0Transaction s _

theorem pageLinks_cpCommand {s t : State} {cp : Cp} {a b c : BitVec 3} (h : s.cpCommand cp a b c = .ok t) :
    pageLinks t = pageLinks s := by
  cases cp with
  | cp1 =>
    unfold State.cpCommand at h
    dsimp only at h
    repeat' split at h
    · cases h
    · exact pageLinks_wishboneCommand h
    · cases h
  | cp0 => cases h; exact pageLinks_cp0Transaction s _

/-! ## The agents leave the MMU alone -/

theorem whenClocked_mmu {s u : State} (h : u.mmu = s.mmu) : (s.whenClocked u).mmu = s.mmu := by
  unfold State.whenClocked
  split
  · exact h
  · rfl

theorem uartReceived_mmu (s : State) (b : Byte) : (s.uartReceived b).mmu = s.mmu := by
  unfold State.uartReceived
  repeat' split
  all_goals rfl

theorem uartSent_mmu (s : State) : s.uartSent.mmu = s.mmu := by unfold State.uartSent; split <;> rfl

theorem spiFinished_mmu (s : State) (w : Word) : (s.spiFinished w).mmu = s.mmu := by
  unfold State.spiFinished; split <;> rfl

theorem samplePio_mmu (s : State) : s.samplePio.mmu = s.mmu := by unfold State.samplePio; dsimp only; split <;> rfl
theorem sampleIrq0_mmu (s : State) : s.sampleIrq0.mmu = s.mmu := by unfold State.sampleIrq0; dsimp only; split <;> rfl
theorem sampleIrq1_mmu (s : State) : s.sampleIrq1.mmu = s.mmu := by unfold State.sampleIrq1; dsimp only; split <;> rfl

theorem driveCe_mmu (s : State) (b : Bool) : (s.driveCe b).mmu = s.mmu := by
  unfold State.driveCe
  dsimp only
  split
  · rfl
  · exact whenClocked_mmu (by rw [sampleIrq1_mmu, sampleIrq0_mmu, samplePio_mmu])

theorem hostMemory_mmu (s : State) (page a w : Word) : (s.hostMemory page a w).mmu = s.mmu := by
  unfold State.hostMemory; split <;> rfl

theorem moveWord_mmu (s : State) (w : Word) : (s.moveWord w).mmu = s.mmu := by
  unfold State.moveWord State.pushRx
  dsimp only
  repeat' split
  all_goals rfl

theorem finishIfDone_mmu (s : State) : s.finishIfDone.mmu = s.mmu := by unfold State.finishIfDone; split <;> rfl

theorem wishboneReply_mmu (s : State) (r : WbReply) : (s.wishboneReply r).mmu = s.mmu := by
  unfold State.wishboneReply
  split
  · split
    · rfl
    · cases r with
      | ack w => exact (finishIfDone_mmu _).trans (moveWord_mmu _ w)
      | err => rfl
      | timeout => rfl
  · rfl

/-- No agent but the reset touches the MMU (R7). -/
theorem agentAct_mmu {e : AgentEvent} (s : State) (he : e ≠ .reset) : (agentAct e s).mmu = s.mmu := by
  cases e with
  | reset => exact absurd rfl he
  | clock => exact whenClocked_mmu (clockCycle_mmu s)
  | uartReceived b => exact whenClocked_mmu (uartReceived_mmu s b)
  | uartSent => exact whenClocked_mmu (uartSent_mmu s)
  | spiFinished w => exact whenClocked_mmu (spiFinished_mmu s w)
  | wishbone r => exact whenClocked_mmu (wishboneReply_mmu s r)
  | pioPins v => exact whenClocked_mmu (samplePio_mmu { s with pins := { s.pins with pioIn := v } })
  | irqPin0 b => exact whenClocked_mmu (sampleIrq0_mmu { s with pins := { s.pins with irq0 := b } })
  | irqPin1 b => exact whenClocked_mmu (sampleIrq1_mmu { s with pins := { s.pins with irq1 := b } })
  | clockEnable b => exact driveCe_mmu s b
  | hostMemory page a w => exact hostMemory_mmu s page a w
  | sysPins | criticalPin => rfl

/-! ## What one change of the state keeps -/

/-- A state at a trap vector, in system mode and with interrupts off, as trap entry leaves it (R280, R290). -/
def AtVector (t : State) : Prop := t.pc.toNat ∈ [2, 4, 6, 8] ∧ t.inSystem = true ∧ t.msr.getLsbD 11 = false

/-- From `s` to `t` the boot ROM and the parameters are kept, and the page link registers unless `t` stands at a vector. -/
structure KeepsConstants (s t : State) : Prop where
  rom : t.rom = s.rom
  params : t.params = s.params
  links : pageLinks t = pageLinks s ∨ AtVector t

namespace KeepsConstants

theorem of_mmu {s t : State} (hm : t.mmu = s.mmu) (hr : t.rom = s.rom) (hp : t.params = s.params) : KeepsConstants s t :=
  ⟨hr, hp, .inl (pageLinks_of_mmu hm)⟩

/-- A change before which the constants were kept. -/
theorem after {s u t : State} (h : KeepsConstants u t) (hr : u.rom = s.rom) (hp : u.params = s.params)
    (hl : pageLinks u = pageLinks s) : KeepsConstants s t :=
  ⟨h.rom.trans hr, h.params.trans hp, hl ▸ h.links⟩

/-- A change before which nothing of the core moved (R235 to R237). -/
theorem afterCore {s u t : State} (h : KeepsConstants u t) (core : CoreUntouched s u) (hl : pageLinks u = pageLinks s) :
    KeepsConstants s t :=
  h.after core.rom core.params hl

/-- A change after which nothing that decides on the constants moves. -/
theorem andThen {s t u : State} (h : KeepsConstants s t) (hr : u.rom = t.rom) (hp : u.params = t.params)
    (hm : u.mmu = t.mmu) (hpc : u.pc = t.pc) (hmsr : u.msr = t.msr) : KeepsConstants s u := by
  refine ⟨hr.trans h.rom, hp.trans h.params, h.links.imp (pageLinks_of_mmu hm).trans fun hv => ?_⟩
  unfold AtVector at hv ⊢
  rwa [hpc, hmsr, inSystem_of_msr hmsr]

end KeepsConstants

theorem trapVector_mem (k : Trap) : k.vector.toNat ∈ [2, 4, 6, 8] := by cases k <;> decide

/-- Trap entry ends at a vector. -/
theorem atVector_enterTrap (s : State) (k : Trap) (link : Word) : AtVector (s.enterTrap k link) := by
  have entered := enterTrap_spec s k link
  exact ⟨trapVector_mem k, entered.mode, entered.interrupts⟩

/-- Trap entry writes the page link registers and ends at a vector, wherever it starts (R290). -/
theorem KeepsConstants.enterTrap {s t : State} (h : KeepsConstants s t) (k : Trap) (link : Word) :
    KeepsConstants s (t.enterTrap k link) :=
  ⟨h.rom, h.params, .inr (atVector_enterTrap t k link)⟩

theorem KeepsConstants.refl (s : State) : KeepsConstants s s := .of_mmu rfl rfl rfl

/-- Waking is trap entry or only the run state (R252). -/
theorem KeepsConstants.wakeUp {s t : State} (h : KeepsConstants s t) : KeepsConstants s t.wakeUp := by
  rcases wakeUp_cases t with ⟨_, _, k, _, e⟩ | ⟨_, _, _, e⟩ | ⟨_, e⟩
  · rw [e]; exact h.enterTrap k _
  · rw [e]; exact h.andThen rfl rfl rfl rfl rfl
  · rwa [e]

/-- The end of a turn is waking and the record of the pins (R253, R425). -/
theorem KeepsConstants.endTurn {s t : State} (h : KeepsConstants s t) (v : State) : KeepsConstants s (v.endTurn t) := by
  have woken : KeepsConstants s (t.whenClocked t.wakeUp) := by
    unfold State.whenClocked
    split
    · exact h.wakeUp
    · exact h
  exact woken.andThen rfl rfl rfl rfl rfl

theorem KeepsConstants.clockCycle {s t : State} (h : KeepsConstants s t) : KeepsConstants s t.clockCycle :=
  h.andThen (by simp) (by simp) (by simp) (by simp) (by simp)

/-! ## The instructions -/

/-- Every state that an answer goes on to satisfies `P`. -/
def EachNext (P : State → Prop) (r : Result State) : Prop := ∀ t, r = .next t → P t

namespace EachNext

theorem next {P : State → Prop} {t : State} (h : P t) : EachNext P (.next t) := by rintro _ ⟨⟩; exact h
theorem fault {P : State → Prop} {f : Fault} : EachNext P (.fault f) := by rintro _ ⟨⟩
theorem refused {P : State → Prop} {q : Refusal} : EachNext P (.refused q) := by rintro _ ⟨⟩
theorem ite {P : State → Prop} {c : Prop} [Decidable c] {a b : Result State} (ha : EachNext P a) (hb : EachNext P b) :
    EachNext P (if c then a else b) := by
  split <;> assumption

end EachNext

theorem finishAlu_keepsConstants (s : State) (rd : Reg) (sf : Bool) (o : AluOut) :
    KeepsConstants s (s.finishAlu rd sf o) := by
  apply KeepsConstants.of_mmu <;> simp [State.finishAlu]

theorem finishTest_keepsConstants (s : State) (f : AluFlags) : KeepsConstants s (s.finishTest f) := .of_mmu rfl rfl rfl

theorem finishT_keepsConstants (s : State) (v : Bool) : KeepsConstants s (s.finishT v) := .of_mmu rfl rfl rfl

theorem advance_keepsConstants (s : State) : KeepsConstants s s.advance := .of_mmu rfl rfl rfl

theorem setReg_advance_keepsConstants (s : State) (rd : Reg) (w : Word) : KeepsConstants s (s.setReg rd w).advance := by
  apply KeepsConstants.of_mmu <;> simp

theorem linkIf_setPc_keepsConstants (s : State) (link : Bool) (w : Word) : KeepsConstants s ((s.linkIf link).setPc w) := by
  apply KeepsConstants.of_mmu <;> simp

theorem raiseTrap_keepsConstants (s : State) (k : Trap) : KeepsConstants s (s.raiseTrap k) :=
  (KeepsConstants.refl s).enterTrap k _

theorem execStsr_keepsConstants (part : MsrPart) (rb : Reg) (s : State) :
    EachNext (KeepsConstants s) (execStsr part rb s) :=
  .ite (.ite .refused (.next (.of_mmu rfl rfl rfl))) (.next (raiseTrap_keepsConstants s _))

theorem execLdub_keepsConstants (rd ra : Reg) (sf : Bool) (s : State) :
    EachNext (KeepsConstants s) (execLdub rd ra sf s) :=
  .ite (.next (.of_mmu (by simp) (by simp) (by simp))) (.next (raiseTrap_keepsConstants s _))

theorem execStub_keepsConstants (rd ra : Reg) (sf : Bool) (s : State) :
    EachNext (KeepsConstants s) (execStub rd ra sf s) :=
  .ite (.next (.of_mmu (by simp) (by simp) (by simp))) (.next (raiseTrap_keepsConstants s _))

theorem transfer_keepsConstants (s : State) (ra : Reg) (mode : StpcMode) (link ie : Bool) :
    KeepsConstants s (s.transfer ra mode link ie) := by
  rw [transfer_spec]
  cases link with
  | true => apply KeepsConstants.of_mmu <;> simp
  | false => exact .of_mmu rfl rfl rfl

theorem execLdr_keepsConstants (ix : Indexing) (up : Bool) (rd ra : Reg) (off : Offset) (s : State) :
    EachNext (KeepsConstants s) (execLdr ix up rd ra off s) := by
  refine .ite .refused ?_
  split
  · exact .next (.of_mmu (by simp) (by simp) (by simp))
  · exact .fault

/-- A store changes the RAM and nothing that `KeepsConstants` speaks of. -/
theorem memWrite_frame {s t : State} {f p a v : Word} (h : s.memWrite f p a v = .ok t) :
    t.mmu = s.mmu ∧ t.rom = s.rom ∧ t.params = s.params := by
  obtain ⟨_, _, rfl⟩ := memWrite_spec h
  exact ⟨rfl, rfl, rfl⟩

theorem execStr_keepsConstants (ix : Indexing) (up : Bool) (rd ra : Reg) (off : Offset) (s : State) :
    EachNext (KeepsConstants s) (execStr ix up rd ra off s) := by
  unfold execStr
  split
  · rename_i t ht
    obtain ⟨hm, hr, hp⟩ := memWrite_frame ht
    exact .next (.of_mmu (by simp [hm]) (by simp [hr]) (by simp [hp]))
  · exact .refused

theorem execSwp_keepsConstants (rd ra rb : Reg) (s : State) : EachNext (KeepsConstants s) (execSwp rd ra rb s) := by
  refine .ite .refused ?_
  split
  · exact .fault
  · split
    · rename_i t ht
      obtain ⟨hm, hr, hp⟩ := memWrite_frame ht
      exact .next (.of_mmu (by simp [hm]) (by simp [hr]) (by simp [hp]))
    · exact .refused

theorem execCdp_keepsConstants (cp : Cp) (ca cb : CReg) (cmd : BitVec 3) (s : State) :
    EachNext (KeepsConstants s) (execCdp cp ca cb cmd s) := by
  refine .ite ?_ (.next (raiseTrap_keepsConstants s _))
  split
  · rename_i t ht
    exact .next ((advance_keepsConstants t).afterCore (cpCommand_core ht) (pageLinks_cpCommand ht))
  · exact .refused

theorem execMrc_keepsConstants (cp : Cp) (rd : Reg) (ca : CReg) (cmd : BitVec 3) (s : State) :
    EachNext (KeepsConstants s) (execMrc cp rd ca cmd s) := by
  refine .ite ?_ (.next (raiseTrap_keepsConstants s _))
  split
  · rename_i v t ht
    exact .next ((setReg_advance_keepsConstants t rd v).afterCore (cpRead_core ht) (pageLinks_cpRead ht))
  · exact .refused

theorem execMcr_keepsConstants (cp : Cp) (cd : CReg) (ra : Reg) (cmd : BitVec 3) (s : State) :
    EachNext (KeepsConstants s) (execMcr cp cd ra cmd s) := by
  refine .ite ?_ (.next (raiseTrap_keepsConstants s _))
  split
  · rename_i t ht
    exact .next ((advance_keepsConstants t).afterCore (cpWrite_core ht) (pageLinks_cpWrite ht))
  · exact .refused

/-- SLEEP wakes at once where a request is active, which may be trap entry (R252, R253). -/
theorem execSleep_keepsConstants (tag : BitVec 9) (s : State) : EachNext (KeepsConstants s) (execSleep tag s) := by
  have asleep : KeepsConstants s s.advance.fallAsleep := .of_mmu rfl rfl rfl
  exact .ite (.next asleep.wakeUp) (.next (raiseTrap_keepsConstants s _))

/-- No instruction writes the boot ROM or the parameters, and the page link registers only as trap entry. -/
theorem exec_keepsConstants (i : Instr) (s : State) : EachNext (KeepsConstants s) (exec i s) := by
  have trapped : EachNext (KeepsConstants s) (.next (s.raiseTrap .commandError)) := .next (raiseTrap_keepsConstants s _)
  cases i with
  | inc | dec | add | adc | sub | neg | sbc | nec | and | orr | eor | nand | bic | sft =>
    exact .next (finishAlu_keepsConstants ..)
  | cmp | cpx | teq | tst => exact .next (finishTest_keepsConstants ..)
  | stb | stbi | spr | spri | stbr | stbri => exact .next (finishT_keepsConstants ..)
  | ldpc | ldil | ldih | cbr | sbr | ldb => exact .next (setReg_advance_keepsConstants ..)
  | mul => exact .ite (.next (setReg_advance_keepsConstants ..)) .refused
  | mv => exact .ite (.next (setReg_advance_keepsConstants ..)) (.next (advance_keepsConstants s))
  | ldsr => exact .ite (.next (setReg_advance_keepsConstants ..)) trapped
  | b => exact .ite (.next (.of_mmu rfl rfl rfl)) (.next (advance_keepsConstants s))
  | bl | rba | rbr => exact .ite (.next (linkIf_setPc_keepsConstants ..)) (.next (advance_keepsConstants s))
  | stpc => exact .ite (.next (transfer_keepsConstants ..)) trapped
  | staf => exact .ite (.next (.of_mmu rfl rfl rfl)) trapped
  | stsr => exact execStsr_keepsConstants _ _ s
  | ldub => exact execLdub_keepsConstants _ _ _ s
  | stub => exact execStub_keepsConstants _ _ _ s
  | ldr => exact execLdr_keepsConstants _ _ _ _ _ s
  | str => exact execStr_keepsConstants _ _ _ _ _ s
  | swp => exact execSwp_keepsConstants _ _ _ s
  | cdp => exact execCdp_keepsConstants _ _ _ _ s
  | mrc => exact execMrc_keepsConstants _ _ _ _ s
  | mcr => exact execMcr_keepsConstants _ _ _ _ s
  | sleep tag => exact execSleep_keepsConstants tag s
  | syscall => exact .next (raiseTrap_keepsConstants s _)

/-! ## The turns -/

theorem coreTurn_keepsConstants {s t : State} (h : s.coreTurn = .next t) : KeepsConstants s t := by
  rcases coreTurn_next h with ⟨_, rfl⟩ | ⟨_, i, _, hexec⟩
  · exact (KeepsConstants.refl s).clockCycle
  · obtain ⟨_, u, hu, rfl⟩ := execute_next hexec
    have executed : KeepsConstants s u := (exec_keepsConstants i _ u hu).after rfl rfl rfl
    exact executed.clockCycle

theorem interruptTurn_keepsConstants {s t : State} (h : s.interruptTurn = .next t) : KeepsConstants s t := by
  rcases interruptTurn_next h with ⟨_, rfl⟩ | ⟨_, _, rfl⟩ | ⟨_, _, _, k, _, rfl⟩
  · exact (KeepsConstants.refl s).clockCycle
  · exact .refl _
  · exact (KeepsConstants.refl s).enterTrap k _

/-- Every agent but the reset keeps the constants and the page link registers (R7). -/
theorem agentAct_keepsConstants {e : AgentEvent} (s : State) (he : e ≠ .reset) : KeepsConstants s (agentAct e s) := by
  have mmu := agentAct_mmu s he
  rcases agentAct_core e s he with core | ⟨page, a, w, _, _, _, stored⟩
  · exact .of_mmu mmu core.rom core.params
  · exact .of_mmu mmu (by rw [stored]) (by rw [stored])

/-- The end of a turn writes neither the boot ROM nor the parameters. -/
theorem endTurn_rom_params (s t : State) : (s.endTurn t).rom = t.rom ∧ (s.endTurn t).params = t.params :=
  have kept := (KeepsConstants.refl t).endTurn s
  ⟨kept.rom, kept.params⟩

/-- A step of any agent but the reset keeps the constants, or ends in trap entry. -/
theorem step_keepsConstants {s t : State} (h : step s = .next t) (hr : s.nextTurn.1 ≠ .agent .reset) :
    KeepsConstants s t := by
  obtain ⟨script, draws, hchoice⟩ := nextTurn_spec s
  have chosen : KeepsConstants s.nextTurn.2 t := by
    rcases step_next h with ⟨_, rfl⟩ | ⟨_, _, u, hu, rfl⟩ | ⟨_, _, u, hu, rfl⟩ | ⟨e, he, rfl⟩
    · exact .refl _
    · exact (coreTurn_keepsConstants hu).endTurn _
    · exact (interruptTurn_keepsConstants hu).endTurn _
    · exact (agentAct_keepsConstants _ (fun hreset => hr (hreset ▸ he))).endTurn _
  exact chosen.after (by rw [hchoice]) (by rw [hchoice]) (by rw [hchoice]; rfl)

/-- The hardware reset keeps the boot ROM and the parameters (R3, R421). -/
theorem step_reset_rom_params {s t : State} (h : step s = .next t) (hr : s.nextTurn.1 = .agent .reset) :
    t.rom = s.rom ∧ t.params = s.params := by
  obtain ⟨script, draws, hchoice⟩ := nextTurn_spec s
  unfold step takeTurn at h
  rw [hr, hchoice] at h
  cases h
  exact endTurn_rom_params _ _

/-- Settles O55: by the agent of the step, with trap entry as the one writer of the page link registers. -/
theorem constantState : Obligations.ConstantState := by
  unfold Obligations.ConstantState
  intro s t h
  by_cases hr : s.nextTurn.1 = .agent .reset
  · obtain ⟨hrom, hparams⟩ := step_reset_rom_params h hr
    exact ⟨hrom, hparams, fun _ => .inl hr⟩
  · have kept := step_keepsConstants h hr
    refine ⟨kept.rom, kept.params, fun hmoved => .inr (kept.links.resolve_left fun hsame => ?_)⟩
    obtain ⟨hi, hd⟩ := Prod.mk.inj hsame
    exact hmoved.elim (· hi) (· hd)

end Sys2Proof.Proofs
end

section
/-! PROOFS. What the devices, the pins and the host do in a turn while the clock runs (O59). -/

namespace Sys2Proof.Proofs

open Sys2Proof.Machine Sys2Proof.Laws

/-! ## Triggers of the interrupt controller -/

/-- A trigger makes its channel pending where the mask enables it, and is lost otherwise (R334). -/
theorem trigger_triggered (q : IrqCtl) (ch : Nat) : Triggered q (q.trigger ch) ch := by
  unfold IrqCtl.trigger
  cases hm : q.mask.getLsbD ch with
  | false => exact ⟨rfl, rfl, fun j => by simp [hm]⟩
  | true =>
    have hch : ch < 8 := BitVec.lt_of_getLsbD hm
    have bit (j : Nat) : (1#8 <<< ch).getLsbD j = decide (j = ch) := by
      rw [BitVec.getLsbD_shiftLeft, BitVec.getLsbD_one, Bool.eq_iff_iff]
      simp only [Bool.and_eq_true, Bool.not_eq_true', decide_eq_true_eq, decide_eq_false_iff_not]
      omega
    exact ⟨rfl, rfl, fun j => by simp only [if_true, BitVec.getLsbD_or, bit, hm, Bool.and_true]⟩

/-- A change of a line triggers at the configured level, and in edge mode only where the level changed (R333). -/
theorem lineChange_moved (q : IrqCtl) (ch : Nat) (before after : Bool) :
    LineMoved q (q.lineChange ch before after) ch before after := by
  unfold LineMoved IrqCtl.lineChange IrqCtl.isLevel IrqCtl.isHigh
  cases hl : q.conf.getLsbD ch with
  | true =>
    by_cases ha : after = q.conf.getLsbD (8 + ch)
    · simpa [ha] using trigger_triggered q ch
    · simp [ha]
  | false =>
    by_cases ha : after = q.conf.getLsbD (8 + ch)
    · by_cases hb : before = after
      · simp [hb]
      · simpa [← ha, hb] using trigger_triggered q ch
    · simp [ha]

/-! ## Sampling the pins -/

/-- A sample of PIO_IN_I triggers channel 5 where a pin has changed (R390). -/
theorem samplePio_spec (s : State) :
    ∃ q, (if s.pins.pioIn = s.seen.pioIn then q = s.irq else Triggered s.irq q 5)
      ∧ s.samplePio = { s with seen := { s.seen with pioIn := s.pins.pioIn }, irq := q } := by
  unfold State.samplePio
  by_cases h : s.pins.pioIn = s.seen.pioIn
  · exact ⟨s.irq, by simp [h], by simp [h]⟩
  · exact ⟨s.irq.trigger 5, by simpa [h] using trigger_triggered s.irq 5, by simp only [h, if_false]; rfl⟩

/-- A sample of IRQ_I(0) moves the line of channel 6, which the base setup does not have (R332, R333, D28). -/
theorem sampleIrq0_spec (s : State) :
    ∃ q, (if s.params.bareProcessor = true then LineMoved s.irq q 6 s.seen.irq0 s.pins.irq0 else q = s.irq)
      ∧ s.sampleIrq0 = { s with seen := { s.seen with irq0 := s.pins.irq0 }, irq := q } := by
  unfold State.sampleIrq0
  cases h : s.params.bareProcessor with
  | true => exact ⟨s.irq.lineChange 6 _ _, by simpa using lineChange_moved s.irq 6 _ _, rfl⟩
  | false => exact ⟨s.irq, by simp, rfl⟩

/-- A sample of IRQ_I(1) moves the line of channel 7, which the base setup does not have (R332, R333, D28). -/
theorem sampleIrq1_spec (s : State) :
    ∃ q, (if s.params.bareProcessor = true then LineMoved s.irq q 7 s.seen.irq1 s.pins.irq1 else q = s.irq)
      ∧ s.sampleIrq1 = { s with seen := { s.seen with irq1 := s.pins.irq1 }, irq := q } := by
  unfold State.sampleIrq1
  cases h : s.params.bareProcessor with
  | true => exact ⟨s.irq.lineChange 7 _ _, by simpa using lineChange_moved s.irq 7 _ _, rfl⟩
  | false => exact ⟨s.irq, by simp, rfl⟩

/-! ## The actions while the clock runs -/

/-- While the clock runs, what waits for the clock happens (R63). -/
theorem whenClocked_of_clocked {s : State} (h : s.clocked = true) (t : State) : s.whenClocked t = t := by
  simp [State.whenClocked, h]

theorem uartReceived_off {s : State} (h : s.comCtrl.getLsbD 6 = false) (b : Byte) : s.uartReceived b = s := by
  simp [State.uartReceived, State.uartOn, bitUartOn, h, -BitVec.getLsbD_eq_getElem]

theorem uartReceived_ready {s : State} (hon : s.comCtrl.getLsbD 6 = true) (hr : s.uart.rxReady = false) (b : Byte) :
    ∃ q, Triggered s.irq q 2
      ∧ s.uartReceived b = { s with uart := { s.uart with rxData := b, rxReady := true }, irq := q } :=
  ⟨_, trigger_triggered s.irq 2, by
    simp only [State.uartReceived, State.uartOn, bitUartOn, hon, hr, if_true, Bool.false_eq_true, if_false]; rfl⟩

/-- On overrun the receive buffer keeps either byte (R374). -/
theorem uartReceived_overrun {s : State} (hon : s.comCtrl.getLsbD 6 = true) (hr : s.uart.rxReady = true) (b : Byte) :
    ∃ q d n, Triggered s.irq q 2 ∧ (d = b ∨ d = s.uart.rxData)
      ∧ s.uartReceived b = { s with uart := { s.uart with rxData := d }, irq := q, draws := n } := by
  refine ⟨_, if Config.overrunKeepsOld s.draws then s.uart.rxData else b, s.draws + 1,
    trigger_triggered s.irq 2, ?_, ?_⟩
  · split
    · exact .inr rfl
    · exact .inl rfl
  · simp only [State.uartReceived, State.uartOn, bitUartOn, hon, hr, if_true]; rfl

theorem uartSent_busy {s : State} (h : s.uart.txBusy = true) :
    ∃ q, Triggered s.irq q 3 ∧ s.uartSent = { s with uart := { s.uart with txBusy := false }, irq := q } :=
  ⟨_, trigger_triggered s.irq 3, by simp only [State.uartSent, h, if_true]; rfl⟩

theorem spiFinished_busy {s : State} (h : s.spi.busy = true) (v : Word) :
    ∃ q, Triggered s.irq q 4 ∧ s.spiFinished v = { s with spi := { s.spi with data := v, busy := false }, irq := q } :=
  ⟨_, trigger_triggered s.irq 4, by simp only [State.spiFinished, h, if_true]; rfl⟩

/-- A change of PIO_IN_I is sampled at once while the clock runs (R390). -/
theorem pioPins_clocked {s : State} (h : s.clocked = true) (v : Word) :
    ∃ q, (if v = s.seen.pioIn then q = s.irq else Triggered s.irq q 5)
      ∧ s.pioPins v = { s with pins := { s.pins with pioIn := v }, seen := { s.seen with pioIn := v }, irq := q } := by
  obtain ⟨q, hq, e⟩ := samplePio_spec { s with pins := { s.pins with pioIn := v } }
  have clocked : State.clocked { s with pins := { s.pins with pioIn := v } } = true := h
  exact ⟨q, hq, (whenClocked_of_clocked clocked _).trans e⟩

theorem driveIrq0_clocked {s : State} (h : s.clocked = true) (level : Bool) :
    ∃ q, (if s.params.bareProcessor = true then LineMoved s.irq q 6 s.seen.irq0 level else q = s.irq)
      ∧ s.driveIrq0 level
          = { s with pins := { s.pins with irq0 := level }, seen := { s.seen with irq0 := level }, irq := q } := by
  obtain ⟨q, hq, e⟩ := sampleIrq0_spec { s with pins := { s.pins with irq0 := level } }
  have clocked : State.clocked { s with pins := { s.pins with irq0 := level } } = true := h
  exact ⟨q, hq, (whenClocked_of_clocked clocked _).trans e⟩

theorem driveIrq1_clocked {s : State} (h : s.clocked = true) (level : Bool) :
    ∃ q, (if s.params.bareProcessor = true then LineMoved s.irq q 7 s.seen.irq1 level else q = s.irq)
      ∧ s.driveIrq1 level
          = { s with pins := { s.pins with irq1 := level }, seen := { s.seen with irq1 := level }, irq := q } := by
  obtain ⟨q, hq, e⟩ := sampleIrq1_spec { s with pins := { s.pins with irq1 := level } }
  have clocked : State.clocked { s with pins := { s.pins with irq1 := level } } = true := h
  exact ⟨q, hq, (whenClocked_of_clocked clocked _).trans e⟩

/-- Where the clock runs already, CE_I only takes its level (R31). -/
theorem driveCe_clocked {s : State} (h : s.clocked = true) (level : Bool) :
    s.driveCe level = { s with pins := { s.pins with ce := level } } := by
  simp [State.driveCe, h]

/-! ## The host's memory -/

/-- `v[15:1] & 0` is even (R14). -/
theorem clearBit0_even (w : Word) : (clearBit0 w).getLsbD 0 = false := by rw [clearBit0_getLsbD]; rfl

/-- The memory of the host does not decode address bit 0 (R51, R54). -/
theorem ramAddress_clearBit0 {p : Params} (h : p.bareProcessor = true) (page a : Word) :
    ramAddress p page (clearBit0 a) = ramAddress p page a := by
  have shifted : clearBit0 a = (a >>> 1) <<< 1 := by
    apply BitVec.eq_of_getLsbD_eq
    intro i hi
    rw [clearBit0_getLsbD, BitVec.getLsbD_shiftLeft, BitVec.getLsbD_ushiftRight]
    rcases Nat.eq_zero_or_pos i with rfl | hpos
    · rfl
    · have back : 1 + (i - 1) = i := by omega
      simp [hi, back, hpos.ne', -BitVec.getLsbD_eq_getElem]
  have cleared : (clearBit0 a).toNat = a.toNat / 2 * 2 := by
    rw [shifted, BitVec.toNat_shiftLeft, BitVec.toNat_ushiftRight, Nat.shiftLeft_eq, Nat.shiftRight_eq_div_pow]
    omega
  have bits : addressBits p = 16 := by simp [addressBits, h]
  unfold ramAddress
  rw [bits, cleared]
  omega

/-- A word written whole is stored in the order of its even address (R57, R61). -/
theorem storedAt_writeWord {s t : State} {page addr v : Word} (even : addr.getLsbD 0 = false)
    (ht : t.ram = s.ram.writeWord (ramAddress s.params page addr) v) : StoredAt s t page addr v := by
  intro a
  rw [ht, read_writeWord, even]
  by_cases hk : a = ramAddress s.params page addr
  · simp [hk]
  · simp [hk]

/-- The host stores its word in the memory of the bare processor (R65). -/
theorem hostMemory_stored {s : State} (hb : s.params.bareProcessor = true) {page : Word} (hp : page.getLsbD 15 = false)
    (a v : Word) :
    StoredAt s (s.hostMemory page a v) page (clearBit0 a) v
      ∧ s.hostMemory page a v = { s with ram := (s.hostMemory page a v).ram } := by
  have e : s.hostMemory page a v = { s with ram := s.ram.writeWord (ramAddress s.params page a) v } := by
    simp [State.hostMemory, inRom, hb, hp, -BitVec.getLsbD_eq_getElem]
  rw [e]
  exact ⟨storedAt_writeWord (clearBit0_even a) (by rw [ramAddress_clearBit0 hb]), rfl⟩

/-- Settles O59: each action from its own lemma, the channels from `trigger_triggered` and `lineChange_moved`. -/
theorem deviceEvents : Obligations.DeviceEvents := by
  unfold Obligations.DeviceEvents
  intro s b v level hc
  have runs (t : State) : s.whenClocked t = t := whenClocked_of_clocked hc t
  simp only [agentAct, runs, true_and]
  refine ⟨fun off => uartReceived_off off b, fun on ready => uartReceived_ready on ready b,
    fun on ready => uartReceived_overrun on ready b, uartSent_busy, fun busy => spiFinished_busy busy v,
    pioPins_clocked hc v, driveIrq0_clocked hc level, driveIrq1_clocked hc level, driveCe_clocked hc level,
    fun page a => ⟨fun base => ?_, fun bare low => hostMemory_stored bare low a v⟩⟩
  simp [State.hostMemory, base]

end Sys2Proof.Proofs
end

section
/-! PROOFS. The invariant of every step: it holds after reset and each turn of each agent keeps it (O53, O54). -/

namespace Sys2Proof.Proofs

open Sys2Proof.Machine Sys2Proof.Laws

/-! ## The two halves of the invariant inside a turn

Inside a turn a core may sleep on an enabled request; the end of the turn wakes it (R253 d). Everything else of `State.Inv`
holds throughout, as a half about the core and the memories and a half about the devices. -/

/-- The FIFOs of the adapter are within their depth, and a write transfer has its words (R401, R408). -/
structure FifosFit (depth : Nat) (w : Wishbone) : Prop where
  tx : w.tx.length ≤ depth
  rx : w.rx.length ≤ depth
  held : w.busy = true → w.dir = true → w.left ≤ w.tx.length

/-- The samples that show these levels of the pins (R29, R390). -/
def pinLevels (p : Pins) : Samples := { pioIn := p.pioIn, irq0 := p.irq0, irq1 := p.irq1 }

/-- The half of the invariant that the devices, the pins and the D-page window carry. -/
structure DeviceInv (s : State) : Prop where
  comCtrlBits : s.comCtrl &&& ~~~comCtrlMask = 0#16
  fifos : FifosFit s.params.wbFifoDepth s.wb
  sampled : s.clocked = true → s.seen = pinLevels s.pins
  windowLength : ∀ p ∈ s.mmu.dOld, p.2 ≤ 2

/-- The memories are in canonical form and inside the RAM (R54). -/
structure MemoryInv (s : State) : Prop where
  ramSorted : s.ram.wf = true
  romSorted : s.rom.wf = true
  pageSize : 1 ≤ s.params.pageSizeLog2
  ramInside : s.ram.below (ramSize s.params) = true

/-- The half of the invariant that the core and the memories carry. -/
structure CoreInv (s : State) : Prop where
  memory : MemoryInv s
  pcEven : s.pc.getLsbD 0 = false
  sleepsInSystem : s.sleeping = true → s.inSystem = true
  pageWriteInSystem : s.mmu.iOld.isSome = true → s.inSystem = true

/-- The invariant as it stands inside a turn. -/
structure TurnInv (s : State) : Prop where
  core : CoreInv s
  devices : DeviceInv s

theorem TurnInv.of_inv {s : State} (h : s.Inv) : TurnInv s :=
  ⟨⟨⟨h.ramSorted, h.romSorted, h.pageSize, h.ramInside⟩, h.pcEven, h.sleepsInSystem, h.pageWriteInSystem⟩,
    h.comCtrlBits, ⟨h.txFits, h.rxFits, h.txHeld⟩, h.sampled, h.windowLength⟩

/-- What the invariant asks beyond the one inside a turn is the quiet sleep (R253 d). -/
theorem TurnInv.inv {s : State} (h : TurnInv s)
    (quiet : s.sleeping = true → s.clocked = true → s.wakes = false) : s.Inv := by
  obtain ⟨⟨⟨ramSorted, romSorted, pageSize, ramInside⟩, pcEven, sleeps, pageWrite⟩, devices⟩ := h
  obtain ⟨bits, ⟨tx, rx, held⟩, sampled, window⟩ := devices
  exact
    ⟨ramSorted, romSorted, pageSize, ramInside, pcEven, bits, tx, rx, held, sleeps, quiet, sampled, pageWrite, window⟩

/-! ## What the halves look at -/

/-- The fields that `DeviceInv` looks at. -/
def deviceView (s : State) : Word × Wishbone × Params × Pins × Samples × List (Word × Nat) :=
  (s.comCtrl, s.wb, s.params, s.pins, s.seen, s.mmu.dOld)

/-- The fields that `TurnInv` looks at, but for the program counter and the mode. -/
def frameView (s : State) :
    (Memory × Memory × Bool × Option Word) × Word × Wishbone × Params × Pins × Samples × List (Word × Nat) :=
  ((s.ram, s.rom, s.sleeping, s.mmu.iOld), deviceView s)

theorem DeviceInv.of_view {s t : State} (h : DeviceInv s) (e : deviceView t = deviceView s) : DeviceInv t := by
  simp only [deviceView, Prod.mk.injEq] at e
  obtain ⟨hc, hw, hp, hpins, hseen, hwin⟩ := e
  refine ⟨hc ▸ h.comCtrlBits, by rw [hw, hp]; exact h.fifos, ?_, hwin ▸ h.windowLength⟩
  unfold State.clocked
  rw [hp, hpins, hseen]
  exact h.sampled

theorem MemoryInv.congr {s t : State} (h : MemoryInv s) (hram : t.ram = s.ram) (hrom : t.rom = s.rom)
    (hp : t.params = s.params) : MemoryInv t :=
  ⟨hram ▸ h.ramSorted, hrom ▸ h.romSorted, hp ▸ h.pageSize, by rw [hram, hp]; exact h.ramInside⟩

/-- A change of the registers, the MSR or the pc that keeps the mode and leaves the pc even. -/
theorem TurnInv.of_frame {s t : State} (h : TurnInv s) (e : frameView t = frameView s)
    (hmode : t.inSystem = s.inSystem) (hpc : t.pc.getLsbD 0 = false) : TurnInv t := by
  simp only [frameView, Prod.mk.injEq] at e
  obtain ⟨⟨hram, hrom, hsleep, hi⟩, hdev⟩ := e
  have hp : t.params = s.params := congrArg (fun v => v.2.2.1) hdev
  refine ⟨⟨h.core.memory.congr hram hrom hp, hpc, ?_, ?_⟩, h.devices.of_view hdev⟩
  · rw [hsleep, hmode]; exact h.core.sleepsInSystem
  · rw [hi, hmode]; exact h.core.pageWriteInSystem

/-- Execution ends with an even pc where it starts with one (R14, R15). -/
theorem TurnInv.advance {s : State} (h : TurnInv s) : TurnInv s.advance :=
  h.of_frame rfl rfl (even_add_two h.core.pcEven)

theorem TurnInv.setReg {s : State} (h : TurnInv s) (r : Reg) (w : Word) : TurnInv (s.setReg r w) :=
  h.of_frame (by simp [frameView, deviceView]) (by simp) (by simpa using h.core.pcEven)

theorem trapVector_even (k : Trap) : k.vector.getLsbD 0 = false := by cases k <;> decide

/-- Trap entry wakes the core, closes the page windows and ends at an even vector (R280, R290, R365). -/
theorem TurnInv.enterTrap {s : State} (h : TurnInv s) (k : Trap) (link : Word) : TurnInv (s.enterTrap k link) where
  core :=
    { memory := h.core.memory.congr rfl rfl rfl
      pcEven := trapVector_even k
      sleepsInSystem := nofun
      pageWriteInSystem := nofun }
  devices :=
    { comCtrlBits := h.devices.comCtrlBits
      fifos := h.devices.fifos
      sampled := h.devices.sampled
      windowLength := by simp [State.trapMmu] }

/-! ## The Wishbone FIFOs -/

/-- A change of the adapter alone, as far as the invariant sees. -/
theorem DeviceInv.setWb {s t : State} (h : DeviceInv s) (hw : FifosFit s.params.wbFifoDepth t.wb)
    (e : deviceView t = deviceView { s with wb := t.wb }) : DeviceInv t :=
  DeviceInv.of_view (s := { s with wb := t.wb }) ⟨h.comCtrlBits, hw, h.sampled, h.windowLength⟩ e

/-- The FIFOs do not look at the flags, the enables and the address registers of the adapter (R402 to R409). -/
theorem FifosFit.congr {d : Nat} {v w : Wishbone} (h : FifosFit d v) (htx : w.tx = v.tx) (hrx : w.rx = v.rx)
    (hbusy : w.busy = v.busy) (hdir : w.dir = v.dir) (hleft : w.left = v.left) : FifosFit d w :=
  ⟨htx ▸ h.tx, hrx ▸ h.rx, by rw [hbusy, hdir, hleft, htx]; exact h.held⟩

/-- With no transfer in progress only the depths count. -/
theorem FifosFit.idle {d : Nat} {w : Wishbone} (htx : w.tx.length ≤ d) (hrx : w.rx.length ≤ d)
    (hbusy : w.busy = false) : FifosFit d w :=
  ⟨htx, hrx, fun busy => by simp [hbusy] at busy⟩

theorem readWbCtrl_deviceInv {s : State} (h : DeviceInv s) : DeviceInv s.readWbCtrl.2 :=
  h.setWb (h.fifos.congr rfl rfl rfl rfl rfl) rfl

theorem writeWbCtrl_deviceInv {s t : State} {v : Word} (h : DeviceInv s) (hw : s.writeWbCtrl v = .ok t) :
    DeviceInv t := by
  unfold State.writeWbCtrl at hw
  split at hw <;> cases hw
  exact h.setWb (h.fifos.congr rfl rfl rfl rfl rfl) rfl

theorem writeWbReg_deviceInv {s t : State} {w : Wishbone} (h : DeviceInv s) (hw : s.writeWbReg w = .ok t)
    (hf : FifosFit s.params.wbFifoDepth w) : DeviceInv t := by
  unfold State.writeWbReg at hw
  split at hw <;> cases hw
  exact h.setWb hf rfl

/-- A word enters the TX FIFO only where there is room and no transfer in progress (R402, R406). -/
theorem pushTx_deviceInv {s t : State} {v : Word} (h : DeviceInv s) (hw : s.pushTx v = .ok t) : DeviceInv t := by
  unfold State.pushTx at hw
  split at hw
  · cases hw
  · rename_i idle
    split at hw
    · cases hw
    · split at hw <;> cases hw
      rename_i room
      have hlen : (s.wb.tx ++ [v]).length ≤ s.params.wbFifoDepth := by
        simp only [List.length_append, List.length_singleton]; omega
      exact h.setWb (.idle hlen h.fifos.rx (by simpa using idle)) rfl

theorem popRx_deviceInv {s : State} {x : Word × State} (h : DeviceInv s) (hr : s.popRx = .ok x) : DeviceInv x.2 := by
  unfold State.popRx at hr
  split at hr
  · cases hr
  · split at hr
    · cases hr
    · split at hr <;> cases hr
      · exact h.of_view rfl
      · rename_i w ws hrx
        have hlen : ws.length ≤ s.params.wbFifoDepth := by
          have := h.fifos.rx
          rw [hrx, List.length_cons] at this
          omega
        exact h.setWb ⟨h.fifos.tx, hlen, h.fifos.held⟩ rfl

/-- A write transfer starts only with all its words in the TX FIFO (R408). -/
theorem wishboneCommand_deviceInv {s t : State} {c : BitVec 3} (h : DeviceInv s) (hc : s.wishboneCommand c = .ok t) :
    DeviceInv t := by
  unfold State.wishboneCommand at hc
  split at hc
  · cases hc
  · split at hc
    · split at hc <;> cases hc
      exact h.setWb ⟨h.fifos.tx, h.fifos.rx, fun _ write => by cases write⟩ rfl
    · repeat' split at hc
      all_goals cases hc
      rename_i enough
      exact h.setWb ⟨h.fifos.tx, h.fifos.rx, fun _ _ => Nat.le_of_not_lt enough⟩ rfl
    · cases hc

/-- At the end of a transfer the adapter is idle (R408). -/
theorem endTransfer_deviceInv {s : State} {w : Wishbone} (h : DeviceInv s) (htx : w.tx.length ≤ s.params.wbFifoDepth)
    (hrx : w.rx.length ≤ s.params.wbFifoDepth) : DeviceInv (s.endTransfer w) :=
  h.setWb (.idle htx hrx rfl) rfl

theorem completeTransfer_deviceInv {s : State} (h : DeviceInv s) : DeviceInv s.completeTransfer :=
  endTransfer_deviceInv h h.fifos.tx h.fifos.rx

/-- An abort leaves open contents, no more than the FIFOs hold (R408). -/
theorem abortTransfer_deviceInv {s : State} (w : Wishbone) (h : DeviceInv s) : DeviceInv (s.abortTransfer w) := by
  have drawn : DeviceInv { s with draws := s.draws + 2 } := h.of_view rfl
  exact endTransfer_deviceInv drawn (List.length_take_le ..) (List.length_take_le ..)

theorem pushRx_rx_length {s : State} (w : Word) :
    (s.pushRx w).wb.rx.length ≤ s.params.wbFifoDepth := by
  unfold State.pushRx
  split
  · simp only [List.length_append, List.length_singleton]; omega
  · exact List.length_take_le ..

/-- A word into the RX FIFO changes nothing else of the adapter. -/
theorem pushRx_frame (s : State) (w : Word) :
    ∃ rx d, s.pushRx w = { s with wb := { s.wb with rx := rx }, draws := d } := by
  unfold State.pushRx
  split
  · exact ⟨_, s.draws, rfl⟩
  · exact ⟨_, s.draws + 1, rfl⟩

/-- An acknowledged access moves one word: a write has one word less to move and one less in the TX FIFO (R408). -/
theorem moveWord_deviceInv {s : State} (w : Word) (h : DeviceInv s) : DeviceInv (s.moveWord w) := by
  unfold State.moveWord
  cases hd : s.wb.dir with
  | true =>
    have htail : s.wb.tx.tail.length ≤ s.params.wbFifoDepth := by
      have := h.fifos.tx
      rw [List.length_tail]; omega
    have hheld : s.wb.busy = true → s.wb.left - 1 ≤ s.wb.tx.tail.length := fun busy => by
      have := h.fifos.held busy hd
      rw [List.length_tail]; omega
    exact h.setWb ⟨htail, h.fifos.rx, fun busy _ => hheld busy⟩ rfl
  | false =>
    have hrx := pushRx_rx_length (s := s) w
    obtain ⟨rx, d, e⟩ := pushRx_frame s w
    rw [e] at hrx
    simp only [Bool.false_eq_true, if_false, e]
    exact h.setWb ⟨h.fifos.tx, hrx, fun _ write => by simp [hd] at write⟩ rfl

theorem finishIfDone_deviceInv {s : State} (h : DeviceInv s) : DeviceInv s.finishIfDone := by
  unfold State.finishIfDone
  split
  · exact completeTransfer_deviceInv h
  · exact h

/-- The host's answers keep the FIFOs within their depth (R408 to R410). -/
theorem wishboneReply_deviceInv {s : State} (r : WbReply) (h : DeviceInv s) : DeviceInv (s.wishboneReply r) := by
  have seen : DeviceInv (s.emit s.wishboneAccess) := h.of_view rfl
  unfold State.wishboneReply
  split
  · split
    · exact completeTransfer_deviceInv h
    · cases r with
      | ack w => exact finishIfDone_deviceInv (moveWord_deviceInv w seen)
      | err | timeout => exact abortTransfer_deviceInv _ seen
  · exact h

/-! ## The coprocessor transactions -/

theorem catchUpLfsr_deviceView (s : State) : deviceView s.catchUpLfsr = deviceView s := by
  unfold State.catchUpLfsr; split <;> rfl

theorem readLfsr_deviceView (s : State) : deviceView s.readLfsr.2 = deviceView s := by
  unfold State.readLfsr
  split
  · exact catchUpLfsr_deviceView s
  · rfl

theorem readIrqSm_deviceView (s : State) : deviceView s.readIrqSm.2 = deviceView s := by
  unfold State.readIrqSm; split <;> rfl

theorem readSpi_deviceView (s : State) : deviceView s.readSpi.2 = deviceView s := by
  unfold State.readSpi; split <;> rfl

/-- The stored bits of com_ctrl are the writable ones (R331, D18). -/
theorem writeComCtrl_deviceInv {s t : State} {v : Word} (h : DeviceInv s) (hw : s.writeComCtrl v = .ok t) :
    DeviceInv t := by
  unfold State.writeComCtrl at hw
  split at hw <;> cases hw
  have masked : v &&& comCtrlMask &&& ~~~comCtrlMask = 0#16 := by
    rw [BitVec.and_assoc, show comCtrlMask &&& ~~~comCtrlMask = 0#16 by decide, BitVec.and_zero]
  exact ⟨masked, h.fifos, h.sampled, h.windowLength⟩

/-- A write of the current D-page opens a window of two instructions (R55). -/
theorem writeSysD_deviceInv {s : State} (v : Word) (h : DeviceInv s) : DeviceInv (s.writeSysD v) :=
  ⟨h.comCtrlBits, h.fifos, h.sampled, List.forall_mem_cons.2 ⟨Nat.le_refl 2, h.windowLength⟩⟩

theorem writeUart_deviceView {s t : State} {v : Word} (hw : s.writeUart v = .ok t) : deviceView t = deviceView s := by
  unfold State.writeUart at hw
  repeat' split at hw
  all_goals cases hw
  rfl

theorem writeSpi_deviceView {s t : State} {v : Word} (hw : s.writeSpi v = .ok t) : deviceView t = deviceView s := by
  unfold State.writeSpi at hw
  split at hw <;> cases hw
  rfl

theorem writeSpiCs_deviceView {s t : State} {v : Word} (hw : s.writeSpiCs v = .ok t) : deviceView t = deviceView s := by
  unfold State.writeSpiCs at hw
  split at hw <;> cases hw
  rfl

/-- The reads with side effects on what the invariant looks at are those of the adapter (R331). -/
theorem sysRead_deviceInv {s : State} {m r : BitVec 3} {x : Word × State} (h : DeviceInv s)
    (hr : s.sysRead m r = .ok x) : DeviceInv x.2 := by
  unfold State.sysRead at hr
  split at hr
  case h_1 => cases hr; exact h.of_view (readIrqSm_deviceView s)
  case h_6 => cases hr; exact h.of_view (readLfsr_deviceView s)
  case h_19 => cases hr; exact h.of_view (readSpi_deviceView s)
  case h_24 => cases hr; exact readWbCtrl_deviceInv h
  case h_28 => exact popRx_deviceInv h hr
  all_goals cases hr; exact h.of_view rfl

/-- No write of a register takes the devices out of the invariant (R331). -/
theorem sysWrite_deviceInv {s t : State} {m r : BitVec 3} {v : Word} (h : DeviceInv s) (hw : s.sysWrite m r v = .ok t) :
    DeviceInv t := by
  unfold State.sysWrite at hw
  split at hw
  case h_7 => cases hw; exact h.of_view (catchUpLfsr_deviceView s)
  case h_10 => cases hw; exact writeSysD_deviceInv v h
  case h_13 => exact h.of_view (writeUart_deviceView hw)
  case h_15 => exact writeComCtrl_deviceInv h hw
  case h_16 => exact h.of_view (writeSpi_deviceView hw)
  case h_17 => exact h.of_view (writeSpiCs_deviceView hw)
  case h_20 => exact writeWbCtrl_deviceInv h hw
  case h_24 => exact pushTx_deviceInv h hw
  case h_21 | h_22 | h_23 | h_25 | h_26 => exact writeWbReg_deviceInv h hw (h.fifos.congr rfl rfl rfl rfl rfl)
  all_goals cases hw; exact h.of_view rfl

theorem cp0Transaction_frameView (s : State) (o : HostOutput) : frameView (s.cp0Transaction o) = frameView s := by
  unfold State.cp0Transaction; split <;> rfl

/-- A transaction keeps the core's half: only one of system mode opens an I-page window (R55, R239). -/
theorem TurnInv.afterCore {s t : State} (h : TurnInv s) (core : CoreUntouched s t) (devices : DeviceInv t)
    (hwin : s.inSystem = true ∨ t.mmu = s.mmu) : TurnInv t := by
  have hmode := inSystem_of_msr core.msr
  refine ⟨⟨h.core.memory.congr core.ram core.rom core.params, core.pc ▸ h.core.pcEven, ?_, ?_⟩, devices⟩
  · rw [core.sleeping, hmode]; exact h.core.sleepsInSystem
  · rw [hmode]
    rcases hwin with hsys | hmmu
    · exact fun _ => hsys
    · rw [hmmu]; exact h.core.pageWriteInSystem

theorem TurnInv.cp0Transaction {s : State} (h : TurnInv s) (o : HostOutput) : TurnInv (s.cp0Transaction o) := by
  have core := cp0Transaction_core s o
  exact h.of_frame (cp0Transaction_frameView s o) (inSystem_of_msr core.msr) (core.pc ▸ h.core.pcEven)

theorem TurnInv.cpRead {s : State} {cp : Cp} {rd r c : BitVec 3} {x : Word × State} (h : TurnInv s)
    (hal : s.cpAllowed cp = true) (hr : s.cpRead cp rd r c = .ok x) : TurnInv x.2 := by
  cases cp with
  | cp1 => exact h.afterCore (cpRead_core hr) (sysRead_deviceInv h.devices hr) (.inl hal)
  | cp0 =>
    simp only [State.cpRead] at hr
    split at hr <;> cases hr
    · have drawn : TurnInv s.drawn := h.of_frame rfl rfl h.core.pcEven
      exact drawn.cp0Transaction _
    · exact h

theorem TurnInv.cpWrite {s t : State} {cp : Cp} {r ra c : BitVec 3} {v : Word} (h : TurnInv s)
    (hal : s.cpAllowed cp = true) (hw : s.cpWrite cp r ra c v = .ok t) : TurnInv t := by
  cases cp with
  | cp1 => exact h.afterCore (cpWrite_core hw) (sysWrite_deviceInv h.devices hw) (.inl hal)
  | cp0 => cases hw; exact h.cp0Transaction _

theorem TurnInv.cpCommand {s t : State} {cp : Cp} {a b c : BitVec 3} (h : TurnInv s)
    (hal : s.cpAllowed cp = true) (hc : s.cpCommand cp a b c = .ok t) : TurnInv t := by
  cases cp with
  | cp1 =>
    have devices : DeviceInv t := by
      simp only [State.cpCommand] at hc
      split at hc
      · cases hc
      · split at hc
        · exact wishboneCommand_deviceInv h.devices hc
        · cases hc
    exact h.afterCore (cpCommand_core hc) devices (.inl hal)
  | cp0 => cases hc; exact h.cp0Transaction _

/-! ## The instructions -/

/-- The state an instruction executes in: awake, with no write of the I-page in flight (R55). -/
structure Ready (s : State) : Prop where
  turn : TurnInv s
  awake : s.sleeping = false
  noPageWrite : s.mmu.iOld = none

/-- An awake core with no page write in flight may change its registers and its mode (R167, R178). -/
theorem Ready.of_frame {s t : State} (h : Ready s) (e : frameView t = frameView s) (hpc : t.pc.getLsbD 0 = false) :
    Ready t := by
  have same := e
  simp only [frameView, Prod.mk.injEq] at same
  obtain ⟨⟨hram, hrom, hsleep, hi⟩, hdev⟩ := same
  have awake : t.sleeping = false := hsleep.trans h.awake
  have noPageWrite : t.mmu.iOld = none := hi.trans h.noPageWrite
  have memory := h.turn.core.memory.congr hram hrom (congrArg (fun v => v.2.2.1) hdev)
  exact ⟨⟨⟨memory, hpc, by simp [awake], by simp [noPageWrite]⟩, h.turn.devices.of_view hdev⟩, awake, noPageWrite⟩

/-- Where such a change ends the instruction. -/
theorem Ready.finish {s t : State} (h : Ready s) (e : frameView t = frameView s) (hpc : t.pc.getLsbD 0 = false) :
    TurnInv t :=
  (h.of_frame e hpc).turn

theorem Ready.nextEven {s : State} (h : Ready s) : (s.pc + 2).getLsbD 0 = false := even_add_two h.turn.core.pcEven

theorem finishAlu_frameView (s : State) (rd : Reg) (sf : Bool) (o : AluOut) :
    frameView (s.finishAlu rd sf o) = frameView s := by
  simp [frameView, deviceView, State.finishAlu]

theorem Ready.finishAlu {s : State} (h : Ready s) (rd : Reg) (sf : Bool) (o : AluOut) : TurnInv (s.finishAlu rd sf o) :=
  h.finish (finishAlu_frameView s rd sf o) ((finishAlu_step s rd sf o).pc ▸ h.nextEven)

theorem Ready.finishTest {s : State} (h : Ready s) (f : AluFlags) : TurnInv (s.finishTest f) :=
  h.finish rfl h.nextEven

theorem Ready.finishT {s : State} (h : Ready s) (v : Bool) : TurnInv (s.finishT v) :=
  h.finish rfl h.nextEven

theorem Ready.setReg_advance {s : State} (h : Ready s) (rd : Reg) (w : Word) : TurnInv (s.setReg rd w).advance :=
  (h.turn.setReg rd w).advance

/-- A taken branch goes to an even target (R208, R254, R255). -/
theorem Ready.linkIf_setPc {s : State} (h : Ready s) (link : Bool) {target : Word} (even : target.getLsbD 0 = false) :
    TurnInv ((s.linkIf link).setPc target) :=
  h.finish (by simp [frameView, deviceView]) even

theorem branchTarget_even {pc : Word} (h : pc.getLsbD 0 = false) (off : BitVec 9) :
    (branchTarget pc off).getLsbD 0 = false := by
  have heven : pc.toNat % 2 = 0 := by simpa [BitVec.getLsbD] using h
  suffices (branchTarget pc off).toNat % 2 = 0 by simpa [BitVec.getLsbD] using this
  unfold branchTarget
  generalize off.signExtend 16 = x
  simp only [BitVec.ofNat_eq_ofNat, BitVec.toNat_add, BitVec.toNat_mul, BitVec.toNat_ofNat]
  omega

theorem Ready.raiseTrap {s : State} (h : Ready s) (k : Trap) : TurnInv (s.raiseTrap k) := h.turn.enterTrap k _

theorem Ready.transfer {s : State} (h : Ready s) (ra : Reg) (mode : StpcMode) (link ie : Bool) :
    TurnInv (s.transfer ra mode link ie) := by
  rw [transfer_spec]
  refine h.finish ?_ (clearBit0_even _)
  cases link with
  | true => simp [frameView, deviceView]
  | false => rfl

theorem Ready.dataPage {s : State} (h : Ready s) : Ready s.dataPage.2 :=
  h.of_frame (by simp [frameView, deviceView]) (by simpa using h.turn.core.pcEven)

theorem TurnInv.writeBack {s : State} (h : TurnInv s) (ix : Indexing) (ra : Reg) (eff : Word) :
    TurnInv (s.writeBack ix ra eff) := by
  unfold State.writeBack
  split
  · exact h.setReg ra eff
  · exact h

/-- One whole word stored in the RAM, by the core or by the host, stays inside it (R51, R54). -/
theorem TurnInv.storeWord {s : State} (h : TurnInv s) (page a w : Word) :
    TurnInv { s with ram := s.ram.writeWord (ramAddress s.params page a) w } :=
  have inside := ramAddress_inside s.params page a h.core.memory.pageSize
  ⟨⟨⟨wf_writeWord h.core.memory.ramSorted _ w, h.core.memory.romSorted, h.core.memory.pageSize,
      below_writeWord h.core.memory.ramInside inside w⟩,
    h.core.pcEven, h.core.sleepsInSystem, h.core.pageWriteInSystem⟩, h.devices.of_view rfl⟩

theorem TurnInv.memWrite {s t : State} {f p a v : Word} (h : TurnInv s) (hw : s.memWrite f p a v = .ok t) :
    TurnInv t := by
  obtain ⟨_, _, rfl⟩ := memWrite_spec hw
  exact h.storeWord p a _

theorem execLdr_turnInv (ix : Indexing) (up : Bool) (rd ra : Reg) (off : Offset) {s : State} (h : Ready s) :
    EachNext TurnInv (execLdr ix up rd ra off s) := by
  refine .ite .refused ?_
  split
  · exact .next ((h.dataPage.turn.setReg rd _).writeBack ix ra _).advance
  · exact .fault

theorem execStr_turnInv (ix : Indexing) (up : Bool) (rd ra : Reg) (off : Offset) {s : State} (h : Ready s) :
    EachNext TurnInv (execStr ix up rd ra off s) := by
  unfold execStr
  split
  · exact .next ((h.dataPage.turn.memWrite ‹_›).writeBack ix ra _).advance
  · exact .refused

theorem execSwp_turnInv (rd ra rb : Reg) {s : State} (h : Ready s) : EachNext TurnInv (execSwp rd ra rb s) := by
  refine .ite .refused ?_
  split
  · exact .fault
  · split
    · exact .next ((h.dataPage.turn.memWrite ‹_›).setReg rd _).advance
    · exact .refused

theorem execCdp_turnInv (cp : Cp) (ca cb : CReg) (cmd : BitVec 3) {s : State} (h : Ready s) :
    EachNext TurnInv (execCdp cp ca cb cmd s) := by
  unfold execCdp
  split
  · split
    · exact .next (h.turn.cpCommand ‹_› ‹_›).advance
    · exact .refused
  · exact .next (h.raiseTrap _)

theorem execMrc_turnInv (cp : Cp) (rd : Reg) (ca : CReg) (cmd : BitVec 3) {s : State} (h : Ready s) :
    EachNext TurnInv (execMrc cp rd ca cmd s) := by
  unfold execMrc
  split
  · split
    · rename_i read
      exact .next ((h.turn.cpRead ‹_› read).setReg rd _).advance
    · exact .refused
  · exact .next (h.raiseTrap _)

theorem execMcr_turnInv (cp : Cp) (cd : CReg) (ra : Reg) (cmd : BitVec 3) {s : State} (h : Ready s) :
    EachNext TurnInv (execMcr cp cd ra cmd s) := by
  unfold execMcr
  split
  · split
    · exact .next (h.turn.cpWrite ‹_› ‹_›).advance
    · exact .refused
  · exact .next (h.raiseTrap _)

/-- Falling asleep is for system mode (R252). -/
theorem TurnInv.fallAsleep {s : State} (h : TurnInv s) (hsys : s.inSystem = true) : TurnInv s.fallAsleep :=
  ⟨⟨h.core.memory.congr rfl rfl rfl, h.core.pcEven, fun _ => hsys, h.core.pageWriteInSystem⟩, h.devices.of_view rfl⟩

/-- A core that is woken to the next instruction (R252, R253). -/
theorem TurnInv.awaken {s : State} (h : TurnInv s) : TurnInv { s with sleeping := false } :=
  ⟨⟨h.core.memory.congr rfl rfl rfl, h.core.pcEven, nofun, h.core.pageWriteInSystem⟩,
    h.devices.of_view rfl⟩

theorem TurnInv.wakeUp {s : State} (h : TurnInv s) : TurnInv s.wakeUp := by
  rcases wakeUp_cases s with ⟨_, _, k, _, e⟩ | ⟨_, _, _, e⟩ | ⟨_, e⟩
  · rw [e]; exact h.enterTrap k _
  · rw [e]; exact h.awaken
  · rwa [e]

theorem execSleep_turnInv (tag : BitVec 9) {s : State} (h : Ready s) : EachNext TurnInv (execSleep tag s) := by
  unfold execSleep
  split
  · rename_i hsys
    exact .next (h.turn.advance.fallAsleep hsys).wakeUp
  · exact .next (h.raiseTrap _)

theorem execStsr_turnInv (part : MsrPart) (rb : Reg) {s : State} (h : Ready s) :
    EachNext TurnInv (execStsr part rb s) :=
  .ite (.ite .refused (.next (h.finish rfl h.nextEven))) (.next (h.raiseTrap _))

theorem execLdub_turnInv (rd ra : Reg) (sf : Bool) {s : State} (h : Ready s) :
    EachNext TurnInv (execLdub rd ra sf s) :=
  .ite (.next (h.finish (by simp [frameView, deviceView]) (by simpa using h.nextEven))) (.next (h.raiseTrap _))

theorem execStub_turnInv (rd ra : Reg) (sf : Bool) {s : State} (h : Ready s) :
    EachNext TurnInv (execStub rd ra sf s) :=
  .ite (.next (h.finish (by simp [frameView, deviceView]) (by simpa using h.nextEven))) (.next (h.raiseTrap _))

/-- Every instruction keeps the invariant inside a turn: it writes registers and goes on, it traps, or it stores, transfers
or sleeps as its own lemma says. -/
theorem exec_turnInv (i : Instr) {s : State} (h : Ready s) : EachNext TurnInv (exec i s) := by
  have trapped : EachNext TurnInv (.next (s.raiseTrap .commandError)) := .next (h.raiseTrap _)
  have passed : EachNext TurnInv (.next s.advance) := .next h.turn.advance
  cases i with
  | inc | dec | add | adc | sub | neg | sbc | nec | and | orr | eor | nand | bic | sft => exact .next (h.finishAlu ..)
  | cmp | cpx | teq | tst => exact .next (h.finishTest _)
  | stb | stbi | spr | spri | stbr | stbri => exact .next (h.finishT _)
  | ldpc | ldil | ldih | cbr | sbr | ldb => exact .next (h.setReg_advance ..)
  | mul => exact .ite (.next (h.setReg_advance ..)) .refused
  | mv => exact .ite (.next (h.setReg_advance ..)) passed
  | ldsr => exact .ite (.next (h.setReg_advance ..)) trapped
  | b c off => exact .ite (.next (h.linkIf_setPc false (branchTarget_even h.turn.core.pcEven off))) passed
  | bl c off => exact .ite (.next (h.linkIf_setPc true (branchTarget_even h.turn.core.pcEven off))) passed
  | rba | rbr => exact .ite (.next (h.linkIf_setPc _ (clearBit0_even _))) passed
  | stpc => exact .ite (.next (h.transfer ..)) trapped
  | staf => exact .ite (.next (h.finish rfl h.nextEven)) trapped
  | stsr => exact execStsr_turnInv _ _ h
  | ldub => exact execLdub_turnInv _ _ _ h
  | stub => exact execStub_turnInv _ _ _ h
  | ldr => exact execLdr_turnInv _ _ _ _ _ h
  | str => exact execStr_turnInv _ _ _ _ _ h
  | swp => exact execSwp_turnInv _ _ _ h
  | cdp => exact execCdp_turnInv _ _ _ _ h
  | mrc => exact execMrc_turnInv _ _ _ _ h
  | mcr => exact execMcr_turnInv _ _ _ _ h
  | sleep tag => exact execSleep_turnInv tag h
  | syscall => exact .next (h.raiseTrap _)

/-! ## The agents -/

theorem whenClocked_deviceInv {s u : State} (h : DeviceInv s) (hu : DeviceInv u) : DeviceInv (s.whenClocked u) := by
  unfold State.whenClocked
  split
  · exact hu
  · exact h

theorem clockCycle_frameView (s : State) : frameView s.clockCycle = frameView s := by simp [frameView, deviceView]

theorem uartReceived_deviceView (s : State) (b : Byte) : deviceView (s.uartReceived b) = deviceView s := by
  unfold State.uartReceived
  repeat' split
  all_goals rfl

theorem uartSent_deviceView (s : State) : deviceView s.uartSent = deviceView s := by
  unfold State.uartSent; split <;> rfl

theorem spiFinished_deviceView (s : State) (w : Word) : deviceView (s.spiFinished w) = deviceView s := by
  unfold State.spiFinished; split <;> rfl

theorem hostMemory_deviceView (s : State) (page a w : Word) : deviceView (s.hostMemory page a w) = deviceView s := by
  unfold State.hostMemory; split <;> rfl

/-! ### The pins and their samples -/

/-- Where the clock runs new levels are sampled at once, where it stands they are not (R63, R390). -/
theorem DeviceInv.repin {s t : State} {pins : Pins} (h : DeviceInv s)
    (hv : deviceView t = deviceView { s with pins := pins, seen := t.seen })
    (sampled : State.clocked { s with pins := pins } = true → t.seen = pinLevels pins) :
    DeviceInv (State.whenClocked { s with pins := pins } t) := by
  unfold State.whenClocked
  cases hc : State.clocked { s with pins := pins } with
  | true =>
    refine DeviceInv.of_view (s := { s with pins := pins, seen := t.seen }) ?_ hv
    exact ⟨h.comCtrlBits, h.fifos, fun _ => sampled hc, h.windowLength⟩
  | false => exact ⟨h.comCtrlBits, h.fifos, fun runs => absurd runs (by simp [hc]), h.windowLength⟩

theorem pioPins_deviceInv {s : State} (v : Word) (h : DeviceInv s) : DeviceInv (s.pioPins v) := by
  obtain ⟨q, _, e⟩ := samplePio_spec { s with pins := { s.pins with pioIn := v } }
  unfold State.pioPins
  dsimp only
  rw [e]
  exact h.repin rfl fun hc => by simp [pinLevels, h.sampled hc]

theorem driveIrq0_deviceInv {s : State} (b : Bool) (h : DeviceInv s) : DeviceInv (s.driveIrq0 b) := by
  obtain ⟨q, _, e⟩ := sampleIrq0_spec { s with pins := { s.pins with irq0 := b } }
  unfold State.driveIrq0
  dsimp only
  rw [e]
  exact h.repin rfl fun hc => by simp [pinLevels, h.sampled hc]

theorem driveIrq1_deviceInv {s : State} (b : Bool) (h : DeviceInv s) : DeviceInv (s.driveIrq1 b) := by
  obtain ⟨q, _, e⟩ := sampleIrq1_spec { s with pins := { s.pins with irq1 := b } }
  unfold State.driveIrq1
  dsimp only
  rw [e]
  exact h.repin rfl fun hc => by simp [pinLevels, h.sampled hc]

/-- A clock that starts again samples all the pins; one that runs or stops has sampled them (R31, R63). -/
theorem driveCe_deviceInv {s : State} (b : Bool) (h : DeviceInv s) : DeviceInv (s.driveCe b) := by
  unfold State.driveCe
  dsimp only
  split
  · rename_i hc
    exact ⟨h.comCtrlBits, h.fifos, fun _ => h.sampled hc, h.windowLength⟩
  · obtain ⟨q5, _, e5⟩ := samplePio_spec { s with pins := { s.pins with ce := b } }
    obtain ⟨q6, _, e6⟩ := sampleIrq0_spec (State.samplePio { s with pins := { s.pins with ce := b } })
    obtain ⟨q7, _, e7⟩ := sampleIrq1_spec (State.samplePio { s with pins := { s.pins with ce := b } }).sampleIrq0
    rw [e7, e6, e5]
    exact h.repin rfl fun _ => rfl

/-- Every agent but the reset keeps the devices' half. -/
theorem agentAct_deviceInv {e : AgentEvent} {s : State} (h : DeviceInv s) (he : e ≠ .reset) :
    DeviceInv (agentAct e s) := by
  cases e with
  | reset => exact absurd rfl he
  | clock => exact whenClocked_deviceInv h (h.of_view (congrArg Prod.snd (clockCycle_frameView s)))
  | uartReceived b => exact whenClocked_deviceInv h (h.of_view (uartReceived_deviceView s b))
  | uartSent => exact whenClocked_deviceInv h (h.of_view (uartSent_deviceView s))
  | spiFinished w => exact whenClocked_deviceInv h (h.of_view (spiFinished_deviceView s w))
  | wishbone r => exact whenClocked_deviceInv h (wishboneReply_deviceInv r h)
  | pioPins v => exact pioPins_deviceInv v h
  | irqPin0 b => exact driveIrq0_deviceInv b h
  | irqPin1 b => exact driveIrq1_deviceInv b h
  | clockEnable b => exact driveCe_deviceInv b h
  | hostMemory page a w => exact h.of_view (hostMemory_deviceView s page a w)
  | sysPins | criticalPin => exact ⟨h.comCtrlBits, h.fifos, h.sampled, h.windowLength⟩

/-! ## The reset -/

/-- The hardware reset keeps the memories and samples the pins as they are (R33, R420, R421). -/
theorem hardReset_turnInv {s : State} (h : TurnInv s) : TurnInv s.hardReset where
  core :=
    { memory := h.core.memory.congr rfl rfl rfl
      pcEven := (by decide : resetPc.getLsbD 0 = false)
      sleepsInSystem := nofun
      pageWriteInSystem := nofun }
  devices :=
    { comCtrlBits := (by decide : 0#16 &&& ~~~comCtrlMask = 0#16)
      fifos := .idle (Nat.zero_le _) (Nat.zero_le _) rfl
      sampled := fun _ => rfl
      windowLength := nofun }

/-! ## The turns -/

/-- No agent takes the machine out of the invariant (R7). -/
theorem agentAct_turnInv (e : AgentEvent) {s : State} (h : TurnInv s) : TurnInv (agentAct e s) := by
  by_cases he : e = .reset
  · subst he
    exact hardReset_turnInv h
  · rcases agentAct_core e s he with core | ⟨page, a, w, _, _, _, stored⟩
    · exact h.afterCore core (agentAct_deviceInv h.devices he) (.inr (agentAct_mmu s he))
    · rw [stored]; exact h.storeWord page a w

theorem TurnInv.clockCycle {s : State} (h : TurnInv s) : TurnInv s.clockCycle := by
  have core := clockCycle_core s
  exact h.of_frame (clockCycle_frameView s) (inSystem_of_msr core.msr) (core.pc ▸ h.core.pcEven)

/-- The D-page window only gets shorter with time (R55). -/
theorem ageWindow_le {w : List (Word × Nat)} {n : Nat} (h : ∀ p ∈ w, p.2 ≤ n) : ∀ p ∈ ageWindow w, p.2 ≤ n := by
  intro p hp
  obtain ⟨q, hq, rfl⟩ := List.mem_map.1 hp
  have := h q (List.mem_of_mem_filter hq)
  dsimp only
  omega

/-- A fetched instruction finds its state ready (R55). -/
theorem beginInstruction_ready {s : State} (h : TurnInv s) (awake : s.sleeping = false) (i : Instr) :
    Ready (s.beginInstruction i) where
  turn :=
    { core :=
        { memory := h.core.memory.congr rfl rfl rfl
          pcEven := h.core.pcEven
          sleepsInSystem := h.core.sleepsInSystem
          pageWriteInSystem := nofun }
      devices :=
        { comCtrlBits := h.devices.comCtrlBits
          fifos := h.devices.fifos
          sampled := h.devices.sampled
          windowLength := ageWindow_le h.devices.windowLength } }
  awake := awake
  noPageWrite := rfl

theorem coreTurn_turnInv {s t : State} (h : TurnInv s) (hturn : s.coreTurn = .next t) : TurnInv t := by
  rcases coreTurn_next hturn with ⟨_, rfl⟩ | ⟨awake, i, _, hexec⟩
  · exact h.clockCycle
  · obtain ⟨_, u, hu, rfl⟩ := execute_next hexec
    exact (exec_turnInv i (beginInstruction_ready h awake i) u hu).clockCycle

theorem interruptTurn_turnInv {s t : State} (h : TurnInv s) (hturn : s.interruptTurn = .next t) : TurnInv t := by
  rcases interruptTurn_next hturn with ⟨_, rfl⟩ | ⟨_, _, rfl⟩ | ⟨_, _, _, k, _, rfl⟩
  · exact h.clockCycle
  · exact h
  · exact h.enterTrap k _

/-- A core that still sleeps after waking sleeps quietly (R252, R253 d). -/
theorem wakeUp_quiet (s : State) : s.wakeUp.sleeping = true → s.wakeUp.wakes = false := by
  rcases wakeUp_cases s with ⟨_, _, k, _, e⟩ | ⟨_, _, _, e⟩ | ⟨quiet, e⟩
  · rw [e]; nofun
  · rw [e]; nofun
  · rw [e]
    exact fun asleep => quiet.resolve_left (by simp [asleep])

/-- The end of a turn makes the invariant whole again (R253 d). -/
theorem endTurn_inv (s : State) {t : State} (h : TurnInv t) : (s.endTurn t).Inv := by
  have shown (u : State) (hu : TurnInv u) : TurnInv (s.showPins u) := hu.of_frame rfl rfl hu.core.pcEven
  unfold State.endTurn State.whenClocked
  cases hc : t.clocked with
  | true => exact (shown _ h.wakeUp).inv fun asleep _ => wakeUp_quiet t asleep
  | false =>
    have halted : (s.showPins t).clocked = false := hc
    exact (shown _ h).inv fun _ runs => absurd runs (by simp [halted])

/-! ## The two obligations -/

/-- Settles O53. -/
theorem resetInv : Obligations.ResetInv := by
  unfold Obligations.ResetInv
  exact
    { ramSorted := rfl, romSorted := rfl, pageSize := by decide, ramInside := rfl, pcEven := by decide,
      comCtrlBits := by decide, txFits := Nat.zero_le _, rxFits := Nat.zero_le _, txHeld := nofun,
      sleepsInSystem := nofun, sleepsQuietly := nofun, sampled := fun _ => rfl, pageWriteInSystem := nofun,
      windowLength := nofun }

/-- Settles O54: each turn keeps the invariant inside a turn, and the end of the turn completes it. -/
theorem stepKeepsInv : Obligations.StepKeepsInv := by
  unfold Obligations.StepKeepsInv
  intro s t hs hstep
  obtain ⟨script, draws, chosen⟩ := nextTurn_spec s
  have h : TurnInv s.nextTurn.2 := by
    rw [chosen]
    exact (TurnInv.of_inv hs).of_frame rfl rfl hs.pcEven
  rcases step_next hstep with ⟨halted, rfl⟩ | ⟨_, _, u, hu, rfl⟩ | ⟨_, _, u, hu, rfl⟩ | ⟨e, _, rfl⟩
  · exact h.inv fun _ runs => absurd runs (by simp [halted])
  · exact endTurn_inv _ (coreTurn_turnInv h hu)
  · exact endTurn_inv _ (interruptTurn_turnInv h hu)
  · exact endTurn_inv _ (agentAct_turnInv e h)

end Sys2Proof.Proofs
end

section
/-! PROOFS. What STPC does and where the memory instructions stop (O19, O27). -/

namespace Sys2Proof.Proofs

open Sys2Proof.Machine Sys2Proof.Laws

/-! ## STPC -/

/-- STPC transfers control where the mode allows its options (R173). -/
theorem execStpc_allowed {s : State} {mode : StpcMode} {ie : Bool} (h : s.inSystem = true ∨ (mode = .keep ∧ ie = false))
    (ra : Reg) (link : Bool) : execStpc mode ra link ie s = .next (s.transfer ra mode link ie) := by
  unfold execStpc stpcUnprivileged
  rcases h with hsys | ⟨rfl, rfl⟩
  · simp [hsys]
  · simp

/-- A transfer writes the link register if it is asked to, bits 11 and 15 of the MSR, and the pc (R167 to R171). -/
theorem transfer_frame (s : State) (ra : Reg) (mode : StpcMode) (link ie : Bool) :
    Frame s (s.transfer ra mode link ie) (if link then [(s.inSystem, .r7)] else []) [11, 15] where
  registers :=
    { regs := fun b r h => by
        cases link with
        | false => rfl
        | true =>
          have other : ¬(b = s.inSystem ∧ r = .r7) := by simpa using h
          exact (bankReg_setReg s .r7 r (s.pc + 2) b).trans (if_neg other)
      msr := fun i h => by
        simp only [List.mem_cons, List.not_mem_nil, or_false, not_or] at h
        exact (returnMsr_getLsbD s.msr mode ie i).trans (by rw [if_neg h.2, if_neg h.1]) }
  mmu := by cases link <;> simp [transfer_spec]
  sleeping := by cases link <;> simp [transfer_spec]
  devices := by cases link <;> constructor <;> simp [transfer_spec]
  memory := by cases link <;> constructor <;> simp [transfer_spec]

/-- The link goes to R7 of the bank in force before the transfer (R168, R171). -/
theorem transfer_link (s : State) (ra : Reg) (mode : StpcMode) (ie : Bool) :
    (s.transfer ra mode true ie).bankReg s.inSystem .r7 = s.pc + 2 :=
  (bankReg_setReg s .r7 .r7 (s.pc + 2) s.inSystem).trans (if_pos ⟨rfl, rfl⟩)

/-- Settles O19: `State.transfer` bit by bit. -/
theorem storePc : Obligations.StorePc := by
  unfold Obligations.StorePc
  intro s mode ra link ie allowed
  refine ⟨s.transfer ra mode link ie, execStpc_allowed allowed ra link, fun i => ?_, ?_, ?_, ?_,
    transfer_frame s ra mode link ie⟩
  · show (clearBit0 (s.reg ra)).getLsbD i = _
    rw [clearBit0_getLsbD]
    by_cases hi : i = 0 <;> simp [hi]
  · rintro rfl
    exact transfer_link s ra mode ie
  · show (returnMsr s.msr mode ie).getLsbD 11 = _
    rw [returnMsr_getLsbD]
    rfl
  · show (returnMsr s.msr mode ie).getLsbD 15 = _
    rw [returnMsr_getLsbD]
    cases mode <;> rfl

/-! ## Where the memory instructions stop -/

theorem memWrite_rom {s : State} {page : Word} (h : inRom page = true) (f a v : Word) :
    s.memWrite f page a v = .error .romWrite := by
  simp [State.memWrite, h]

theorem memWrite_fetched {s : State} {f page a : Word} (hr : inRom page = false) (h : s.hitsFetched f page a = true)
    (v : Word) : s.memWrite f page a v = .error .storeToFetchedWord := by
  simp [State.memWrite, hr, h]

/-- The two fetched words depend on the pc alone, which the draw of a data access leaves (R55, R68). -/
theorem dataPage_hitsFetched (s : State) (f page a : Word) :
    s.dataPage.2.hitsFetched f page a = s.hitsFetched f page a := by
  simp [State.hitsFetched]

theorem memRead_fault {s : State} {page a : Word} {f : Fault} (h : s.wordAt page a = .error f) :
    s.memRead page a = .error f := by
  simp [State.memRead, h, Except.map]

theorem memRead_word {s : State} {page a w : Word} (h : s.wordAt page a = .ok w) :
    s.memRead page a = .ok (accessOrder a w) := by
  simp [State.memRead, h, Except.map]

/-- STR stops where its store does. -/
theorem execStr_refused {s : State} {ix : Indexing} {up : Bool} {rd ra : Reg} {off : Offset} {q : Refusal}
    (h : s.dataPage.2.memWrite s.iPage s.dataPage.1 (s.accessAddress ix up ra off) (s.reg rd) = .error q) :
    execStr ix up rd ra off s = .refused q := by
  simp [execStr, h]

/-- LDR stops where its load does, in the forms it has (R192). -/
theorem execLdr_fault {s : State} {ix : Indexing} {up : Bool} {rd ra : Reg} {off : Offset} {f : Fault}
    (hform : ix = .pre ∨ rd ≠ ra) (h : s.wordAt s.dataPage.1 (s.accessAddress ix up ra off) = .error f) :
    execLdr ix up rd ra off s = .fault f := by
  have form : (ix.writesBack && decide (rd = ra)) = false := by
    rcases hform with rfl | hne
    · rfl
    · simp [hne]
  simp [execLdr, form, memRead_fault h]

theorem execLdr_intoBase {s : State} {ix : Indexing} (h : ix ≠ .pre) (up : Bool) (ra : Reg) (off : Offset) :
    execLdr ix up ra ra off s = .refused .ldrWritebackIntoRd := by
  have wb : ix.writesBack = true := by
    cases ix with
    | pre => exact absurd rfl h
    | preWriteback | postWriteback => rfl
  simp [execLdr, wb]

theorem execSwp_fault {s : State} {rd ra rb : Reg} {f : Fault} (hne : rd ≠ rb)
    (h : s.wordAt s.dataPage.1 (s.reg ra) = .error f) : execSwp rd ra rb s = .fault f := by
  simp [execSwp, hne, memRead_fault h]

/-- SWP reads first, and stops where its store does (R197). -/
theorem execSwp_refused {s : State} {rd ra rb : Reg} {w : Word} {q : Refusal} (hne : rd ≠ rb)
    (hw : s.wordAt s.dataPage.1 (s.reg ra) = .ok w)
    (h : s.dataPage.2.memWrite s.iPage s.dataPage.1 (s.reg ra) (s.reg rb) = .error q) :
    execSwp rd ra rb s = .refused q := by
  simp [execSwp, hne, memRead_word hw, h]

/-- Settles O27: each instruction stops where its load or its store does. -/
theorem memoryStops : Obligations.MemoryStops := by
  unfold Obligations.MemoryStops
  rintro s ix up rd ra rb off _ _ rfl rfl
  have fetched (a v : Word) (hr : inRom s.dataPage.1 = false) (h : s.hitsFetched s.iPage s.dataPage.1 a = true) :
      s.dataPage.2.memWrite s.iPage s.dataPage.1 a v = .error .storeToFetchedWord :=
    memWrite_fetched hr ((dataPage_hitsFetched ..).trans h) v
  exact ⟨fun wb => execLdr_intoBase wb up ra off, if_pos rfl, fun hr => execStr_refused (memWrite_rom hr ..),
    fun hr h => execStr_refused (fetched _ _ hr h), fun _ form => execLdr_fault form, fun _ => execSwp_fault,
    fun _ hne hw hr => execSwp_refused hne hw (memWrite_rom hr ..),
    fun _ hne hw hr h => execSwp_refused hne hw (fetched _ _ hr h)⟩

end Sys2Proof.Proofs
end

section
/-! PROOFS. The memory a program sees, and the loads and stores that stay in it (O23 to O26, O28). -/

namespace Sys2Proof.Proofs

open Sys2Proof.Machine Sys2Proof.Laws

/-! ## A word and its two bytes -/

/-- A word made of two bytes has them as its low and its high byte (R58). -/
theorem wordOfBytes_eq_iff (lo hi : Byte) (w : Word) : wordOfBytes lo hi = w ↔ lo = lowByte w ∧ hi = highByte w := by
  constructor
  · rintro rfl
    simp only [wordOfBytes, lowByte, highByte, BitVec.extractLsb'_append_eq_ite]
    simp
  · rintro ⟨rfl, rfl⟩
    exact wordOfBytes_bytes w

theorem readWord_eq_some_iff (m : Memory) (k : Nat) (w : Word) :
    m.readWord k = some w ↔ m.read k = some (lowByte w) ∧ m.read (k + 1) = some (highByte w) := by
  unfold Memory.readWord
  cases m.read k <;> cases m.read (k + 1) <;> simp [wordOfBytes_eq_iff]

theorem readWord_eq_none_iff (m : Memory) (k : Nat) :
    m.readWord k = none ↔ m.read k = none ∨ m.read (k + 1) = none := by
  unfold Memory.readWord
  cases m.read k <;> cases m.read (k + 1) <;> simp

/-! ## The address map -/

/-- The memory that a page shows: the boot ROM or the RAM (R53, R54). -/
def pageMemory (s : State) (page : Word) : Memory := if inRom page then s.rom else s.ram

/-- The byte address, in the memory that the page shows, of the word that contains byte address `a` (R51, R53, R54). -/
def wordAddress (p : Params) (page a : Word) : Nat := if inRom page then romAddress a else ramAddress p page a

theorem wordAt_ok_iff (s : State) (page a w : Word) :
    s.wordAt page a = .ok w ↔ (pageMemory s page).readWord (wordAddress s.params page a) = some w := by
  unfold State.wordAt pageMemory wordAddress
  cases inRom page with
  | false =>
    simp only [Bool.false_eq_true, if_false]
    cases s.ram.readWord (ramAddress s.params page a) <;> simp
  | true =>
    simp only [if_true]
    cases s.rom.readWord (romAddress a) <;> simp

theorem wordAt_error_iff (s : State) (page a : Word) :
    (∃ f, s.wordAt page a = .error f) ↔ (pageMemory s page).readWord (wordAddress s.params page a) = none := by
  unfold State.wordAt pageMemory wordAddress
  cases inRom page with
  | false =>
    simp only [Bool.false_eq_true, if_false]
    cases s.ram.readWord (ramAddress s.params page a) <;> simp
  | true =>
    simp only [if_true]
    cases s.rom.readWord (romAddress a) <;> simp

/-- The addresses of R51, R53 and R54: page bit 15 selects the ROM, the unit of R2 says which bits the RAM decodes. -/
theorem wordAddress_eq (p : Params) (page a : Word) :
    wordAddress p page a =
      if page.getLsbD 15 = true then 2 * (a.toNat / 2)
      else if p.bareProcessor = true then page.toNat * 2 ^ 16 + 2 * (a.toNat / 2)
      else page.toNat % 2 ^ p.numPagesLog2 * 2 ^ p.pageSizeLog2 + 2 * (a.toNat % 2 ^ p.pageSizeLog2 / 2) := by
  unfold wordAddress inRom romAddress ramAddress pageBits addressBits
  have hpage := page.isLt
  have ha := a.isLt
  cases page.getLsbD 15 with
  | true => simp only [if_true, Nat.mul_comm]
  | false =>
    cases p.bareProcessor with
    | true =>
      simp only [Bool.false_eq_true, if_false, if_true, Nat.mod_eq_of_lt hpage, Nat.mod_eq_of_lt ha]
      omega
    | false => simp only [Bool.false_eq_true, if_false, Nat.mul_comm 2]

/-- Settles O23: the pages by R52, the words by their two bytes at `wordAddress`. -/
theorem memoryMap : Obligations.MemoryMap := by
  unfold Obligations.MemoryMap
  intro s page a w k m
  refine ⟨fun user => ⟨?_, fun settled => ?_⟩, fun system => ⟨fun settled => ?_, fun settled => ?_⟩, rfl, ?_⟩
  · simp [State.dataPage, user]
  · simp [State.fetchPage, State.iPage, settled, user]
  · simp [State.dataPage, settled, system]
  · simp [State.fetchPage, State.iPage, settled, system]
  · intro hk hm
    rw [← wordAddress_eq] at hk
    have hm : m = pageMemory s page := hm
    rw [hk, hm, wordAt_ok_iff, wordAt_error_iff, readWord_eq_some_iff, readWord_eq_none_iff]
    exact ⟨Iff.rfl, Iff.rfl⟩

/-! ## The byte order of an access -/

theorem swapBytes_eq_rotateLeft (w : Word) : swapBytes w = w.rotateLeft 8 := by
  apply BitVec.eq_of_getLsbD_eq
  intro i hi
  unfold swapBytes
  rw [BitVec.getLsbD_append, BitVec.getLsbD_rotateLeft]
  by_cases h8 : i < 8
  · simp [h8]
  · have : i - 8 < 8 := by omega
    simp [h8, hi, this]

/-- The bytes are exchanged at an odd address (R60, R61). -/
theorem accessOrder_eq (a w : Word) : accessOrder a w = if a.getLsbD 0 then w.rotateLeft 8 else w := by
  unfold accessOrder
  rw [swapBytes_eq_rotateLeft]

/-- A word stored at one address and loaded at another one of the same word is exchanged where one of them is odd. -/
theorem accessOrder_accessOrder (a b v : Word) :
    accessOrder b (accessOrder a v) = if b.getLsbD 0 = a.getLsbD 0 then v else v.rotateLeft 8 := by
  cases ha : a.getLsbD 0 <;> cases hb : b.getLsbD 0
  · simp [accessOrder_eq, ha, hb, -BitVec.getLsbD_eq_getElem]
  · simp [accessOrder_eq, ha, hb, -BitVec.getLsbD_eq_getElem]
  · simp [accessOrder_eq, ha, hb, -BitVec.getLsbD_eq_getElem]
  · have same : accessOrder b (accessOrder a v) = accessOrder a (accessOrder a v) := by
      simp only [accessOrder, ha, hb]
    simp [same]

theorem lowByte_accessOrder (a v : Word) :
    lowByte (accessOrder a v) = if a.getLsbD 0 then highByte v else lowByte v := by
  unfold accessOrder
  split
  · exact ((wordOfBytes_eq_iff (highByte v) (lowByte v) _).1 rfl).1.symm
  · rfl

theorem highByte_accessOrder (a v : Word) :
    highByte (accessOrder a v) = if a.getLsbD 0 then lowByte v else highByte v := by
  unfold accessOrder
  split
  · exact ((wordOfBytes_eq_iff (highByte v) (lowByte v) _).1 rfl).2.symm
  · rfl

/-! ## Frames that a write of a named register keeps -/

theorem sameRegisters_inSystem {s t : State} {W : List (Bool × Reg)} (h : SameRegisters s t W []) :
    t.inSystem = s.inSystem :=
  h.msr 15 (List.not_mem_nil)

theorem sameRegisters_setReg {s t : State} {W : List (Bool × Reg)} (h : SameRegisters s t W []) {r : Reg}
    (hr : (s.inSystem, r) ∈ W) (w : Word) : SameRegisters s (t.setReg r w) W [] where
  regs b q hq := by
    have other : ¬(b = t.inSystem ∧ q = r) := by
      rintro ⟨rfl, rfl⟩
      exact hq (sameRegisters_inSystem h ▸ hr)
    rw [bankReg_setReg, if_neg other]
    exact h.regs b q hq
  msr i hi := by rw [setReg_msr]; exact h.msr i hi

theorem sameDevices_setReg {s t : State} (h : SameDevices s t) (r : Reg) (w : Word) : SameDevices s (t.setReg r w) := by
  obtain ⟨_, _, _, _, _, _, _, _, _, _, _, _, _, _⟩ := h
  constructor <;> simpa

theorem frame_setReg {s t : State} {W : List (Bool × Reg)} (h : Frame s t W []) {r : Reg} (hr : (s.inSystem, r) ∈ W)
    (w : Word) : Frame s (t.setReg r w) W [] where
  registers := sameRegisters_setReg h.registers hr w
  mmu := by rw [setReg_mmu]; exact h.mmu
  sleeping := by rw [setReg_sleeping]; exact h.sleeping
  devices := sameDevices_setReg h.devices r w
  memory := ⟨by rw [setReg_ram]; exact h.memory.ram, by rw [setReg_rom]; exact h.memory.rom⟩

theorem storeFrame_setReg {s t : State} {W : List (Bool × Reg)} {page addr v : Word}
    (h : StoreFrame s t W page addr v) {r : Reg} (hr : (s.inSystem, r) ∈ W) (w : Word) :
    StoreFrame s (t.setReg r w) W page addr v where
  registers := sameRegisters_setReg h.registers hr w
  mmu := by rw [setReg_mmu]; exact h.mmu
  sleeping := by rw [setReg_sleeping]; exact h.sleeping
  devices := sameDevices_setReg h.devices r w
  ram := by unfold StoredAt; rw [setReg_ram]; exact h.ram
  rom := by rw [setReg_rom]; exact h.rom

/-- The program counter is in no frame. -/
theorem frame_advance {s t : State} {W : List (Bool × Reg)} {bits : List Nat} (h : Frame s t W bits) :
    Frame s t.advance W bits :=
  ⟨⟨h.registers.regs, h.registers.msr⟩, h.mmu, h.sleeping, { h.devices with }, { h.memory with }⟩

theorem storeFrame_advance {s t : State} {W : List (Bool × Reg)} {page addr v : Word}
    (h : StoreFrame s t W page addr v) : StoreFrame s t.advance W page addr v :=
  ⟨⟨h.registers.regs, h.registers.msr⟩, h.mmu, h.sleeping, { h.devices with }, h.ram, h.rom⟩

/-! ## The base register -/

/-- The two index modes with write-back write the base register (R192 to R194). -/
theorem writeBack_of_ne {ix : Indexing} (h : ix ≠ .pre) (s : State) (ra : Reg) (eff : Word) :
    s.writeBack ix ra eff = s.setReg ra eff := by
  cases ix with
  | pre => exact absurd rfl h
  | preWriteback | postWriteback => rfl

/-- What an index mode adds to the registers that a frame names: the base register where it is written (R192, R193). -/
def baseWritten (s : State) (ix : Indexing) (ra : Reg) : List (Bool × Reg) :=
  if ix = .pre then [] else [(s.inSystem, ra)]

theorem mem_baseWritten {ix : Indexing} (h : ix ≠ .pre) (s : State) (ra : Reg) :
    (s.inSystem, ra) ∈ baseWritten s ix ra := by
  simp [baseWritten, h]

theorem frame_writeBack {s t : State} {W : List (Bool × Reg)} (h : Frame s t W []) {ix : Indexing} {ra : Reg}
    (hra : ix ≠ .pre → (s.inSystem, ra) ∈ W) (eff : Word) : Frame s (t.writeBack ix ra eff) W [] := by
  by_cases hix : ix = .pre
  · subst hix
    exact h
  · rw [writeBack_of_ne hix]
    exact frame_setReg h (hra hix) eff

theorem storeFrame_writeBack {s t : State} {W : List (Bool × Reg)} {page addr v : Word}
    (h : StoreFrame s t W page addr v) {ix : Indexing} {ra : Reg} (hra : ix ≠ .pre → (s.inSystem, ra) ∈ W)
    (eff : Word) : StoreFrame s (t.writeBack ix ra eff) W page addr v := by
  by_cases hix : ix = .pre
  · subst hix
    exact h
  · rw [writeBack_of_ne hix]
    exact storeFrame_setReg h (hra hix) eff

theorem writeBack_base {ix : Indexing} (h : ix ≠ .pre) (s : State) (ra : Reg) (eff : Word) :
    (s.writeBack ix ra eff).reg ra = eff := by
  simp [writeBack_of_ne h]

/-- Write-back leaves the loaded register in the forms that LDR has (R192). -/
theorem writeBack_reg {ix : Indexing} {rd ra : Reg} (form : ix = .pre ∨ rd ≠ ra) (s : State) (eff : Word) :
    (s.writeBack ix ra eff).reg rd = s.reg rd := by
  rcases form with rfl | hne
  · rfl
  · by_cases hix : ix = .pre
    · subst hix
      rfl
    · simp [writeBack_of_ne hix, hne]

/-! ## LDR -/

/-- The draw of a data access is in no frame (R55). -/
theorem dataPage_frame (s : State) (W : List (Bool × Reg)) (bits : List Nat) : Frame s s.dataPage.2 W bits := by
  obtain ⟨d, e⟩ := dataPage_snd_eq s
  rw [e]
  exact ⟨⟨fun _ _ _ => rfl, fun _ _ => rfl⟩, rfl, rfl,
    ⟨rfl, rfl, rfl, rfl, rfl, rfl, rfl, rfl, rfl, rfl, rfl, rfl, rfl, rfl⟩, ⟨fun _ => rfl, fun _ => rfl⟩⟩

/-- LDR loads the word of its address, in the forms it has (R192). -/
theorem execLdr_word {s : State} {ix : Indexing} {up : Bool} {rd ra : Reg} {off : Offset} {w : Word}
    (form : ix = .pre ∨ rd ≠ ra) (hw : s.wordAt s.dataPage.1 (s.accessAddress ix up ra off) = .ok w) :
    execLdr ix up rd ra off s =
      .next ((s.dataPage.2.setReg rd (accessOrder (s.accessAddress ix up ra off) w)).writeBack ix ra
        (s.effective up ra off)).advance := by
  have allowed : (ix.writesBack && decide (rd = ra)) = false := by
    rcases form with rfl | hne
    · rfl
    · simp [hne]
  simp [execLdr, allowed, memRead_word hw]

theorem execLdr_frame (s : State) (ix : Indexing) (rd ra : Reg) (v eff : Word) :
    Frame s ((s.dataPage.2.setReg rd v).writeBack ix ra eff).advance
      ((s.inSystem, rd) :: baseWritten s ix ra) [] :=
  have loaded := frame_setReg (dataPage_frame s _ []) (List.mem_cons_self ..) v
  frame_advance (frame_writeBack loaded (fun wb => List.mem_cons_of_mem _ (mem_baseWritten wb s ra)) eff)

theorem accessAddress_eq (s : State) (ix : Indexing) (up : Bool) (ra : Reg) (off : Offset) :
    s.accessAddress ix up ra off = if ix = .postWriteback then s.reg ra else s.effective up ra off := by
  cases ix <;> rfl

/-- Settles O24: `execLdr_word` with the address of R191. -/
theorem loadRegister : Obligations.LoadRegister := by
  unfold Obligations.LoadRegister
  intro s ix up rd ra off o eff addr w ho heff haddr form hw
  have offset : o = s.offset off := by cases off <;> exact ho
  have effective : eff = s.effective up ra off := by rw [heff, offset]; rfl
  have address : addr = s.accessAddress ix up ra off := by rw [accessAddress_eq, haddr, effective]
  subst effective address
  refine ⟨_, execLdr_word form hw, ?_, fun wb => ?_, by simp, ?_⟩
  · rw [advance_reg, writeBack_reg form, reg_setReg, if_pos rfl, accessOrder_eq]
  · rw [advance_reg, writeBack_base wb]
  · exact execLdr_frame ..

/-! ## STR and SWP -/

/-- `s` with the word `v` stored by a data access at `addr`: the whole word of RAM, in the order of the address (R61). -/
def stored (s : State) (addr v : Word) : State :=
  { s.dataPage.2 with ram := s.ram.writeWord (ramAddress s.params s.dataPage.1 addr) (accessOrder addr v) }

/-- A store of the data page is done exactly outside the boot ROM and the two fetched words (R61, R68). -/
theorem dataWrite_ok_iff (s t : State) (a v : Word) :
    s.dataPage.2.memWrite s.iPage s.dataPage.1 a v = .ok t
      ↔ inRom s.dataPage.1 = false ∧ s.hitsFetched s.iPage s.dataPage.1 a = false ∧ t = stored s a v := by
  have writes : stored s a v = { s.dataPage.2 with
      ram := s.dataPage.2.ram.writeWord (ramAddress s.dataPage.2.params s.dataPage.1 a) (accessOrder a v) } := by
    simp [stored]
  rw [writes, ← dataPage_hitsFetched s]
  constructor
  · exact memWrite_spec
  · rintro ⟨hr, hh, rfl⟩
    simp [State.memWrite, hr, hh]

theorem storedAt_of_writeWord {s t : State} {page addr v : Word}
    (ht : t.ram = s.ram.writeWord (ramAddress s.params page addr) (accessOrder addr v)) : StoredAt s t page addr v := by
  intro a
  rw [ht, read_writeWord, highByte_accessOrder, lowByte_accessOrder]
  by_cases hk : a = ramAddress s.params page addr
  · simp [hk]
  · simp [hk]

theorem stored_frame (s : State) (addr v : Word) (W : List (Bool × Reg)) :
    StoreFrame s (stored s addr v) W s.dataPage.1 addr v := by
  obtain ⟨registers, mmu, sleeping, devices, memory⟩ := dataPage_frame s W []
  exact ⟨⟨registers.regs, registers.msr⟩, mmu, sleeping, { devices with }, storedAt_of_writeWord rfl, memory.rom⟩

/-- STR goes on exactly where its store is done (R193). -/
theorem execStr_next_iff (s t : State) (ix : Indexing) (up : Bool) (rd ra : Reg) (off : Offset) :
    execStr ix up rd ra off s = .next t
      ↔ inRom s.dataPage.1 = false ∧ s.hitsFetched s.iPage s.dataPage.1 (s.accessAddress ix up ra off) = false
        ∧ t = ((stored s (s.accessAddress ix up ra off) (s.reg rd)).writeBack ix ra (s.effective up ra off)).advance := by
  unfold execStr
  constructor
  · intro h
    split at h
    · rename_i u hu
      obtain ⟨hr, hh, rfl⟩ := (dataWrite_ok_iff ..).1 hu
      cases h
      exact ⟨hr, hh, rfl⟩
    · cases h
  · rintro ⟨hr, hh, rfl⟩
    simp [(dataWrite_ok_iff ..).2 ⟨hr, hh, rfl⟩]

/-- SWP goes on exactly where its two registers differ, its word has a value and its store is done (R197). -/
theorem execSwp_next_iff (s t : State) (rd ra rb : Reg) :
    execSwp rd ra rb s = .next t
      ↔ rd ≠ rb ∧ inRom s.dataPage.1 = false ∧ s.hitsFetched s.iPage s.dataPage.1 (s.reg ra) = false
        ∧ ∃ w, s.wordAt s.dataPage.1 (s.reg ra) = .ok w
          ∧ t = ((stored s (s.reg ra) (s.reg rb)).setReg rd (accessOrder (s.reg ra) w)).advance := by
  unfold execSwp
  constructor
  · intro h
    split at h
    · cases h
    · rename_i hne
      split at h
      · cases h
      · rename_i old hold
        obtain ⟨w, hw, rfl⟩ := memRead_spec hold
        split at h
        · rename_i u hu
          obtain ⟨hr, hh, rfl⟩ := (dataWrite_ok_iff ..).1 hu
          cases h
          exact ⟨hne, hr, hh, w, hw, rfl⟩
        · cases h
  · rintro ⟨hne, hr, hh, w, hw, rfl⟩
    simp [hne, memRead_word hw, (dataWrite_ok_iff ..).2 ⟨hr, hh, rfl⟩]

theorem execStr_frame (s : State) (ix : Indexing) (ra : Reg) (addr v eff : Word) :
    StoreFrame s ((stored s addr v).writeBack ix ra eff).advance (baseWritten s ix ra) s.dataPage.1 addr v :=
  storeFrame_advance (storeFrame_writeBack (stored_frame s addr v _) (fun wb => mem_baseWritten wb s ra) eff)

theorem execSwp_frame (s : State) (rd : Reg) (addr v w : Word) :
    StoreFrame s ((stored s addr v).setReg rd w).advance [(s.inSystem, rd)] s.dataPage.1 addr v :=
  storeFrame_advance (storeFrame_setReg (stored_frame s addr v _) (List.mem_cons_self ..) w)

/-- Settles O25: `execStr_next_iff` and the frame of its store. -/
theorem storeRegister : Obligations.StoreRegister := by
  unfold Obligations.StoreRegister
  rintro s ix up rd ra off _ _ rfl rfl hr hh
  refine ⟨_, (execStr_next_iff ..).2 ⟨hr, hh, rfl⟩, by simp [stored], fun wb => ?_, execStr_frame ..⟩
  rw [advance_reg, writeBack_base wb]

/-- Settles O26: `execSwp_next_iff` and the frame of its store. -/
theorem swapMemory : Obligations.SwapMemory := by
  unfold Obligations.SwapMemory
  rintro s rd ra rb _ w hne rfl hr hh hw
  refine ⟨_, (execSwp_next_iff ..).2 ⟨hne, hr, hh, w, hw, rfl⟩, ?_, by simp [stored], execSwp_frame ..⟩
  rw [advance_reg, reg_setReg, if_pos rfl, accessOrder_eq]

/-! ## A load behind a store -/

/-- What a store leaves behind: it was to the RAM, and its frame (R61). -/
theorem store_next {s t : State} {store : Instr} {addr v : Word}
    (hstore : (∃ ix up rd ra off, store = .str ix up rd ra off ∧ addr = s.accessAddress ix up ra off ∧ v = s.reg rd)
      ∨ ∃ rd ra rb, store = .swp rd ra rb ∧ addr = s.reg ra ∧ v = s.reg rb)
    (h : exec store s = .next t) :
    inRom s.dataPage.1 = false ∧ ∃ W, StoreFrame s t W s.dataPage.1 addr v := by
  rcases hstore with ⟨ix, up, rd, ra, off, rfl, rfl, rfl⟩ | ⟨rd, ra, rb, rfl, rfl, rfl⟩
  · obtain ⟨hr, _, rfl⟩ := (execStr_next_iff ..).1 h
    exact ⟨hr, _, execStr_frame ..⟩
  · obtain ⟨_, hr, _, w, _, rfl⟩ := (execSwp_next_iff ..).1 h
    exact ⟨hr, _, execSwp_frame ..⟩

/-- The stored word is read back from every address of it (R61, R65). -/
theorem storeFrame_wordAt {s t : State} {W : List (Bool × Reg)} {page addr v b : Word}
    (h : StoreFrame s t W page addr v) (hr : inRom page = false)
    (hb : ramAddress s.params page b = ramAddress s.params page addr) :
    t.wordAt page b = .ok (accessOrder addr v) := by
  rw [wordAt_ok_iff, pageMemory, wordAddress, hr, h.devices.params]
  show t.ram.readWord (ramAddress s.params page b) = _
  rw [readWord_eq_some_iff, hb, h.ram, h.ram, lowByte_accessOrder, highByte_accessOrder]
  simp

/-- A store leaves no page write in flight and the data page as it is (R55). -/
theorem storeFrame_dataPage {s t : State} {W : List (Bool × Reg)} {page addr v : Word}
    (h : StoreFrame s t W page addr v) (settled : s.mmu.dOld = []) : t.dataPage = (s.dPage, t) := by
  rw [dataPage_settled t (h.mmu ▸ settled), State.dPage, State.dPage, sameRegisters_inSystem h.registers, h.mmu]

/-- Settles O28: the load reads the word that the frame of the store names, in the order of its own address. -/
theorem loadAfterStore : Obligations.LoadAfterStore := by
  unfold Obligations.LoadAfterStore
  intro s t store addr v b r settled hstore hexec hb hr
  obtain ⟨ram, W, frame⟩ := store_next hstore hexec
  rw [dataPage_settled s settled] at ram frame
  have page : t.dataPage.1 = s.dPage := congrArg Prod.fst (storeFrame_dataPage frame settled)
  have word : t.wordAt t.dataPage.1 b = .ok (accessOrder addr v) := by rw [page]; exact storeFrame_wordAt frame ram hb
  rw [← accessOrder_accessOrder] at hr
  constructor
  · rintro ix up rq rb off rfl form
    refine ⟨_, execLdr_word form word, ?_⟩
    rw [advance_reg, writeBack_reg form, reg_setReg, if_pos rfl, hr]
  · rintro rq rb rc rfl hne hh
    refine ⟨_, (execSwp_next_iff ..).2 ⟨hne, page ▸ ram, hh, _, word, rfl⟩, ?_⟩
    rw [advance_reg, reg_setReg, if_pos rfl, hr]

end Sys2Proof.Proofs
end

section
/-! PROOFS. The page windows, the stops of a turn, and the interrupts (O7, O47, O56). -/

namespace Sys2Proof.Proofs

open Sys2Proof.Machine Sys2Proof.Laws

/-! ## Where a turn of the core stops -/

theorem current_eq_fault {s : State} {f : Fault} (h : s.fetch = .error f) : s.current = .fault f := by
  simp [State.current, h]

theorem current_eq_refused {s : State} {w : Word} {r : Reserved} (hw : s.fetch = .ok w) (hd : decode w = .error r) :
    s.current = .refused (.reservedWord r) := by
  simp [State.current, hw, decodeBytes, hd]

/-- Behind a write of the current I-page nothing but a taken transfer executes (R55). -/
theorem execute_refused {s : State} {i : Instr} (hp : s.mmu.iOld.isSome = true) (hi : s.transfersControl i = false) :
    s.execute i = .refused .iPageWithoutTransfer := by
  simp [State.execute, State.pageJustWritten, hp, hi]

theorem takeTurn_core_fault {s : State} {f : Fault} (hc : s.clocked = true) (awake : s.sleeping = false)
    (hf : s.fetch = .error f) : takeTurn .core s = .fault f := by
  simp [takeTurn, hc, State.coreTurn, awake, current_eq_fault hf, withEnd]

theorem takeTurn_core_reserved {s : State} {w : Word} {r : Reserved} (hc : s.clocked = true) (awake : s.sleeping = false)
    (hw : s.fetch = .ok w) (hd : decode w = .error r) : takeTurn .core s = .refused (.reservedWord r) := by
  simp [takeTurn, hc, State.coreTurn, awake, current_eq_refused hw hd, withEnd]

theorem takeTurn_core_iPage {s : State} {w : Word} {i : Instr} (hc : s.clocked = true) (awake : s.sleeping = false)
    (hw : s.fetch = .ok w) (hd : decode w = .ok i) (hp : s.mmu.iOld.isSome = true) (hi : s.transfersControl i = false) :
    takeTurn .core s = .refused .iPageWithoutTransfer := by
  simp [takeTurn, hc, State.coreTurn, awake, current_eq_next hw hd, execute_refused hp hi, withEnd]

/-- Settles O7: each stop is one of `State.current` or of `State.execute`. -/
theorem stepStops : Obligations.StepStops := by
  unfold Obligations.StepStops
  intro s rest hscript hc awake
  rw [step_scripted hscript]
  exact ⟨fun _ hf => takeTurn_core_fault hc awake hf, fun _ _ hw hd => takeTurn_core_reserved hc awake hw hd,
    fun _ _ hw hd hp hi => takeTurn_core_iPage hc awake hw hd hp hi⟩

/-! ## The windows of page writes -/

/-- A write of the I-page in system mode (R361). -/
theorem execMcr_sysI {s : State} (system : s.inSystem = true) (ra : Reg) :
    exec (.mcr .cp1 1 ra 1) s = .next (s.writeSysI (s.reg ra)).advance :=
  if_pos system

/-- A write of the D-page in system mode (R361). -/
theorem execMcr_sysD {s : State} (system : s.inSystem = true) (ra : Reg) :
    exec (.mcr .cp1 1 ra 2) s = .next (s.writeSysD (s.reg ra)).advance :=
  if_pos system

/-- A data access uses the current D-page or the one value that is in flight (R55). -/
theorem dataPage_of_single {s : State} {p : Word} {n : Nat} (system : s.inSystem = true) (window : s.mmu.dOld = [(p, n)]) :
    s.dataPage.1 = p ∨ s.dataPage.1 = s.mmu.sysD := by
  rcases dataPage_spec s with h | ⟨_, q, hq, h⟩
  · right
    rw [h, State.dPage, if_pos system]
  · left
    rw [window, List.mem_singleton] at hq
    rw [h, hq]

/-- With the window empty a data access in system mode uses the system D-page (R52). -/
theorem dataPage_of_empty {s : State} (system : s.inSystem = true) (window : s.mmu.dOld = []) :
    s.dataPage.1 = s.mmu.sysD := by
  rw [dataPage_settled s window]
  exact if_pos system

/-- Settles O56: the old I-page lasts one fetch, the old D-page is in the window of two instructions. -/
theorem pageWrites : Obligations.PageWrites := by
  unfold Obligations.PageWrites
  rintro s ra _ i j k system rfl iSettled dSettled
  refine ⟨⟨_, execMcr_sysI system ra, rfl, if_pos system⟩, _, execMcr_sysD system ra, ?_⟩
  have window : (s.writeSysD (s.reg ra)).advance.mmu.dOld = [(s.mmu.sysD, 2)] := congrArg _ dSettled
  generalize ht : (s.writeSysD (s.reg ra)).advance = t at window
  have mode : t.inSystem = true := by rw [← ht]; exact system
  have page : t.mmu.sysD = s.reg ra := by rw [← ht]; rfl
  have first : (t.beginInstruction i).mmu.dOld = [(s.mmu.sysD, 1)] := congrArg ageWindow window
  have second : ((t.beginInstruction i).beginInstruction j).mmu.dOld = [(s.mmu.sysD, 0)] := congrArg ageWindow first
  have third : (((t.beginInstruction i).beginInstruction j).beginInstruction k).mmu.dOld = [] :=
    congrArg ageWindow second
  rw [← page]
  exact ⟨dataPage_of_single mode first, dataPage_of_single mode second, dataPage_of_empty mode third⟩

/-! ## The interrupts -/

/-- The end of a turn does nothing to a core that is awake, or whose clock stands, and pins that did not change (R253,
R425). -/
theorem endTurn_same {s t : State} (quiet : t.clocked = false ∨ t.sleeping = false) (hp : t.pio = s.pio)
    (hc : t.comCtrl = s.comCtrl) (hs : t.spi = s.spi) : s.endTurn t = t := by
  have noWake : t.whenClocked t.wakeUp = t := by
    rcases quiet with halted | awake
    · simp [State.whenClocked, halted]
    · have stays : t.wakeUp = t := by simp [State.wakeUp, awake]
      rw [stays, State.whenClocked, ite_self]
  rw [State.endTurn, noWake, State.showPins, pinChanges_same hp hc hs, List.append_nil]

/-- The interrupt that may be taken, by GX and the two masked lines of the core (R283, R284, R287, R288). -/
theorem interruptPending_eq (s : State) :
    s.interruptPending =
      if s.msr.getLsbD 11 then
        if s.line0 then some .critical else if s.line1 then some .controller else none
      else none := by
  unfold State.interruptPending State.line0 State.line1 State.request0 State.request1 IrqCtl.request
  rw [Bool.and_assoc]
  rfl

/-- Without a pending interrupt, or at a closed boundary, an interrupt turn does nothing (R289, R440). -/
theorem takeTurn_interrupt_idle {s : State} (hc : s.clocked = true) (awake : s.sleeping = false)
    (h : s.interruptPending = none ∨ s.boundaryOpen = false) : takeTurn .interrupt s = .next s := by
  have idle : s.endTurn s = s := endTurn_same (.inr awake) rfl rfl rfl
  rcases h with none | closed
  · simp [takeTurn, hc, State.interruptTurn, awake, none, withEnd, idle]
  · cases hp : s.interruptPending <;> simp [takeTurn, hc, State.interruptTurn, awake, hp, closed, withEnd, idle]

/-- At an open boundary the pending interrupt is taken (R289). -/
theorem takeTurn_interrupt_taken {s : State} {k : Trap} (hc : s.clocked = true) (awake : s.sleeping = false)
    (hk : s.interruptPending = some k) (hb : s.boundaryOpen = true) (hp : s.mmu.iOld = none) :
    takeTurn .interrupt s = .next (s.takeInterrupt k) := by
  have ended : s.endTurn (s.takeInterrupt k) = s.takeInterrupt k := endTurn_same (.inr rfl) rfl rfl rfl
  simp [takeTurn, hc, State.interruptTurn, awake, hk, hb, State.pageJustWritten, hp, withEnd, ended]

/-- Behind a write of the current I-page the pending interrupt is refused (R55). -/
theorem takeTurn_interrupt_iPage {s : State} {k : Trap} (hc : s.clocked = true) (awake : s.sleeping = false)
    (hk : s.interruptPending = some k) (hb : s.boundaryOpen = true) (hp : s.mmu.iOld.isSome = true) :
    takeTurn .interrupt s = .refused .iPageWithoutTransfer := by
  simp [takeTurn, hc, State.interruptTurn, awake, hk, hb, State.pageJustWritten, hp, withEnd]

/-- The boundary behind an instruction: closed behind a taken transfer, and behind LDR and SWP for their register (R289,
R440). -/
theorem boundaryAfter_eq (s : State) (i : Instr) :
    s.boundaryAfter i =
      if s.transfersControl i then .afterBranch
      else match i with
        | .ldr _ _ rd _ _ => .afterLoad rd
        | .swp rd _ _ => .afterLoad rd
        | _ => .free := by
  unfold State.boundaryAfter
  split
  · rfl
  · cases i <;> rfl

/-- Settles O47: the interrupt that the lines and GX select, and what an interrupt turn does with it. -/
theorem interruptTaken : Obligations.InterruptTaken := by
  unfold Obligations.InterruptTaken
  refine ⟨?_, fun s => ⟨fun h => ?_, fun h => ?_, fun rd w i h hw hd => ?_⟩, boundaryAfter_eq⟩
  · rintro s u rest hscript hc awake hu
    have clocked : u.clocked = true := hu ▸ hc
    have awake : u.sleeping = false := hu ▸ awake
    have boundary : s.boundaryOpen = u.boundaryOpen := hu ▸ rfl
    have window : s.mmu = u.mmu := hu ▸ rfl
    have msr : s.msr = u.msr := hu ▸ rfl
    have critical : s.line0 = u.line0 := hu ▸ rfl
    have controller : s.line1 = u.line1 := hu ▸ rfl
    have pc : s.pc = u.pc := hu ▸ rfl
    rw [step_scripted hscript, ← hu, boundary, window, msr, critical, controller, pc]
    have selected := interruptPending_eq u
    refine ⟨fun hb hp hgx h0 => ?_, fun hb hp hgx h0 h1 => ?_, fun hb hp hgx hline => ?_, fun hno => ?_⟩
    · simp only [hgx, h0, if_true] at selected
      exact ⟨_, takeTurn_interrupt_taken clocked awake selected hb hp, takeInterrupt_spec u .critical⟩
    · simp only [hgx, h0, h1, if_true, Bool.false_eq_true, if_false] at selected
      exact ⟨_, takeTurn_interrupt_taken clocked awake selected hb hp, takeInterrupt_spec u .controller⟩
    · have pending : ∃ k, u.interruptPending = some k := by
        rw [selected]
        rcases hline with h0 | h1
        · exact ⟨.critical, by simp [hgx, h0, -BitVec.getLsbD_eq_getElem]⟩
        · cases u.line0 <;> simp [hgx, h1, -BitVec.getLsbD_eq_getElem]
      obtain ⟨k, hk⟩ := pending
      exact takeTurn_interrupt_iPage clocked awake hk hb hp
    · refine takeTurn_interrupt_idle clocked awake ?_
      rcases hno with hb | hgx | ⟨h0, h1⟩
      · exact .inr hb
      · exact .inl (by simp [selected, hgx, -BitVec.getLsbD_eq_getElem])
      · exact .inl (by simp [selected, h0, h1])
  · simp [State.boundaryOpen, h]
  · simp [State.boundaryOpen, h]
  · simp [State.boundaryOpen, h, current_eq_next hw hd]

end Sys2Proof.Proofs
end

section
/-! PROOFS. One cycle of the main clock, and the clock that CE_I halts (O58). -/

namespace Sys2Proof.Proofs

open Sys2Proof.Machine Sys2Proof.Laws

/-! ## The timer -/

/-- What the timer shows when the pre-counter has counted on, before the match (R341). -/
def countedOn (t : Timer) : Word := if t.pre = t.prsc then t.cnt + 1 else t.cnt

/-- The pre-counter one cycle on (R341). -/
def preCountedOn (t : Timer) : Word := if t.pre = t.prsc then 0 else t.pre + 1

theorem timer_count_eq (t : Timer) : t.count = { t with cnt := countedOn t, pre := preCountedOn t } := by
  unfold Timer.count countedOn preCountedOn
  split <;> rfl

/-- A stopped timer keeps its counters (R342). -/
theorem timer_cycle_stopped {t : Timer} (h : t.thr = 0) : t.cycle = (t, false) := by
  simp [Timer.cycle, h]

/-- A running timer counts on, and starts again from 0 with a pulse where it meets the threshold (R341, R343). -/
theorem timer_cycle_running {t : Timer} (h : t.thr ≠ 0) :
    t.cycle = ({ t with cnt := if countedOn t = t.thr then 0 else countedOn t, pre := preCountedOn t },
      decide (countedOn t = t.thr)) := by
  have running : t.thr ≠ 0#16 := h
  unfold Timer.cycle
  rw [if_neg running, timer_count_eq]
  by_cases hit : countedOn t = t.thr <;> simp [hit]

/-- Channel 0 is pulsed where a running timer meets its threshold (R343). -/
theorem timer_cycle_pulse (t : Timer) : t.cycle.2 = decide (t.thr ≠ 0 ∧ countedOn t = t.thr) := by
  by_cases h : t.thr = 0
  · simp [timer_cycle_stopped h, h]
  · simp only [timer_cycle_running h, ne_eq, h, not_false_eq_true, true_and]

theorem timerCycle_eq (s : State) :
    s.timerCycle = { s with
      timer := s.timer.cycle.1, irq := if s.timer.cycle.2 then s.irq.pulse chTimer else s.irq } := by
  unfold State.timerCycle
  obtain ⟨t, p⟩ := s.timer.cycle
  cases p <;> rfl

/-- The pulse of the timer on channel 0 (R332, R343). -/
theorem timerCycle_pend (s : State) (j : Nat) :
    s.timerCycle.irq.pend.getLsbD j
      = (s.irq.pend.getLsbD j || (decide (j = 0) && s.timer.cycle.2 && s.irq.mask.getLsbD 0)) := by
  rw [timerCycle_eq]
  cases s.timer.cycle.2 with
  | false => simp
  | true =>
    rw [Bool.and_true]
    exact (trigger_triggered s.irq 0).pend j

theorem timerCycle_mask_conf (s : State) : s.timerCycle.irq.mask = s.irq.mask ∧ s.timerCycle.irq.conf = s.irq.conf := by
  rw [timerCycle_eq]
  cases s.timer.cycle.2 with
  | false => exact ⟨rfl, rfl⟩
  | true =>
    have pulsed := trigger_triggered s.irq 0
    exact ⟨pulsed.mask, pulsed.conf⟩

/-! ## The level-triggered channels -/

/-- The lines between pulses: the adapter's on channel 1, the pins of the bare processor on channels 6 and 7 (R332). -/
theorem lines_getLsbD (s : State) {j : Nat} (hj : j < 8) :
    s.lines.getLsbD j = (decide (j = 1) && s.wb.line || decide (j = 6) && (s.params.bareProcessor && s.pins.irq0)
      || decide (j = 7) && (s.params.bareProcessor && s.pins.irq1)) := by
  unfold State.lines
  simp only [BitVec.getLsbD_append, BitVec.getLsbD_ofBool]
  interval_cases j <;> simp

theorem presentChannels_getLsbD (s : State) {j : Nat} (hj : j < 8) :
    s.presentChannels.getLsbD j = (decide (j < 6) || s.params.bareProcessor) := by
  unfold State.presentChannels
  cases s.params.bareProcessor <;> (revert j; decide)

/-- A level-triggered channel that is there and enabled becomes pending where its line has the configured level (R333,
R334). -/
theorem sampleLevels_pend (s : State) {j : Nat} (hj : j < 8) :
    s.sampleLevels.irq.pend.getLsbD j
      = (s.irq.pend.getLsbD j || (s.irq.conf.getLsbD j && decide (s.lines.getLsbD j = s.irq.conf.getLsbD (8 + j))
        && s.irq.mask.getLsbD j && (decide (j < 6) || s.params.bareProcessor))) := by
  unfold State.sampleLevels
  simp only [BitVec.getLsbD_or, BitVec.getLsbD_and, BitVec.getLsbD_not, BitVec.getLsbD_xor, BitVec.getLsbD_extractLsb',
    presentChannels_getLsbD s hj, hj]
  cases s.lines.getLsbD j <;> cases s.irq.conf.getLsbD (8 + j) <;> simp

/-! ## One cycle of the main clock -/

/-- A clock cycle changes the timer and the interrupt controller only, whatever turns are still to come (R341). -/
theorem clockCycle_eq (s : State) (rest : List Turn) :
    State.clockCycle { s with script := rest }
      = { s with script := rest, timer := s.timer.cycle.1, irq := s.clockCycle.irq } := by
  unfold State.clockCycle State.sampleLevels
  rw [timerCycle_eq, timerCycle_eq s]
  rfl

theorem clockCycle_mask_conf (s : State) : s.clockCycle.irq.mask = s.irq.mask ∧ s.clockCycle.irq.conf = s.irq.conf :=
  timerCycle_mask_conf s

/-- The pending bits one cycle on: the pulse of the timer, and the levels of the lines that are there (R332 to R334). -/
theorem clockCycle_pend (s : State) {j : Nat} (hj : j < 8) :
    s.clockCycle.irq.pend.getLsbD j = (s.irq.pend.getLsbD j || s.irq.mask.getLsbD j
      && (decide (j = 0) && s.timer.cycle.2 || s.irq.conf.getLsbD j && (decide (j < 6) || s.params.bareProcessor)
        && decide (s.lines.getLsbD j = s.irq.conf.getLsbD (8 + j)))) := by
  obtain ⟨mask, conf⟩ := timerCycle_mask_conf s
  have lines : s.timerCycle.lines = s.lines := by simp [State.lines]
  rw [State.clockCycle, sampleLevels_pend _ hj, timerCycle_pend, mask, conf, lines, timerCycle_params]
  by_cases h0 : j = 0
  · subst h0
    cases s.irq.mask.getLsbD 0 <;> simp [Bool.or_assoc, Bool.and_comm]
  · cases s.irq.mask.getLsbD j <;> simp [h0, Bool.and_assoc, Bool.and_comm]

/-- Where a channel is there, its line is the adapter's or the pin's (R332, D28). -/
theorem lines_of_present {s : State} {j : Nat} (hj : j < 8) (present : (decide (j < 6) || s.params.bareProcessor) = true) :
    s.lines.getLsbD j
      = (decide (j = 1) && s.wb.line || decide (j = 6) && s.pins.irq0 || decide (j = 7) && s.pins.irq1) := by
  rw [lines_getLsbD s hj]
  cases hb : s.params.bareProcessor with
  | true => simp only [Bool.true_and]
  | false =>
    have low : j < 6 := by simpa [hb] using present
    have no6 : j ≠ 6 := by omega
    have no7 : j ≠ 7 := by omega
    simp [no6, no7]

/-- A scripted clock cycle of an awake core. -/
theorem step_clock {s u : State} {rest : List Turn} (hscript : s.script = .agent .clock :: rest) (hc : s.clocked = true)
    (awake : s.sleeping = false) (hu : u = { s with script := rest }) : step s = .next u.clockCycle := by
  have clocked : u.clocked = true := hu ▸ hc
  have awake : u.clockCycle.sleeping = false := by rw [clockCycle_sleeping, hu]; exact awake
  have act : agentAct .clock u = u.clockCycle := whenClocked_of_clocked clocked _
  have ended : u.endTurn u.clockCycle = u.clockCycle := endTurn_same (.inr awake) (by simp) (by simp) (by simp)
  rw [step_scripted hscript, ← hu, takeTurn, act, ended]

/-! ## The halted clock -/

/-- While the clock stands, what waits for the clock does not happen (R63). -/
theorem whenClocked_of_halted {s : State} (h : s.clocked = false) (t : State) : s.whenClocked t = s := by
  simp [State.whenClocked, h]

theorem takeTurn_agent_idle {s : State} {e : AgentEvent} (h : s.clocked = false) (idle : agentAct e s = s) :
    takeTurn (.agent e) s = .next s := by
  have ended : s.endTurn s = s := endTurn_same (.inl h) rfl rfl rfl
  rw [takeTurn, idle, ended]

/-- While CE_I is low, no turn of the core, the clock, the UART, the SPI or the adapter has an effect (R63). -/
theorem takeTurn_halted {s : State} (h : s.clocked = false) {turn : Turn} {b : Byte} {w : Word} {r : WbReply}
    (hturn : turn ∈ [.core, .interrupt, .agent .clock, .agent (.uartReceived b), .agent .uartSent,
      .agent (.spiFinished w), .agent (.wishbone r)]) : takeTurn turn s = .next s := by
  have halted (t : State) : s.whenClocked t = s := whenClocked_of_halted h t
  simp only [List.mem_cons, List.not_mem_nil, or_false] at hturn
  rcases hturn with rfl | rfl | rfl | rfl | rfl | rfl | rfl
  · simp [takeTurn, h]
  · simp [takeTurn, h]
  · exact takeTurn_agent_idle h (halted _)
  · exact takeTurn_agent_idle h (halted _)
  · exact takeTurn_agent_idle h (halted _)
  · exact takeTurn_agent_idle h (halted _)
  · exact takeTurn_agent_idle h (halted _)

/-- Only the bare processor is ever halted (R63). -/
theorem bareProcessor_of_halted {s : State} (h : s.clocked = false) : s.params.bareProcessor = true := by
  unfold State.clocked at h
  cases hb : s.params.bareProcessor with
  | true => rfl
  | false => simp [hb] at h

/-- When CE_I rises, PIO_IN_I and then the two pins IRQ_I are sampled (R31, R63, R390). -/
theorem driveCe_rising {s : State} (h : s.clocked = false) : ∃ q5 q6 q7 : IrqCtl,
    (if s.pins.pioIn = s.seen.pioIn then q5 = s.irq else Triggered s.irq q5 5)
      ∧ LineMoved q5 q6 6 s.seen.irq0 s.pins.irq0 ∧ LineMoved q6 q7 7 s.seen.irq1 s.pins.irq1
      ∧ s.driveCe true = { s with
          pins := { s.pins with ce := true }, irq := q7,
          seen := { pioIn := s.pins.pioIn, irq0 := s.pins.irq0, irq1 := s.pins.irq1 } } := by
  have bare := bareProcessor_of_halted h
  obtain ⟨q5, moved5, sampled5⟩ := samplePio_spec { s with pins := { s.pins with ce := true } }
  obtain ⟨q6, moved6, sampled6⟩ := sampleIrq0_spec (State.samplePio { s with pins := { s.pins with ce := true } })
  obtain ⟨q7, moved7, sampled7⟩ :=
    sampleIrq1_spec (State.samplePio { s with pins := { s.pins with ce := true } }).sampleIrq0
  have clocked : State.clocked { s with pins := { s.pins with ce := true } } = true := by simp [State.clocked]
  rw [sampled5] at sampled6 moved6
  rw [sampled5, sampled6] at sampled7 moved7
  refine ⟨q5, q6, q7, moved5, (if_pos bare).mp moved6, (if_pos bare).mp moved7, ?_⟩
  unfold State.driveCe
  dsimp only
  rw [if_neg (by simp [h]), whenClocked_of_clocked clocked, sampled5, sampled6, sampled7]

/-- Settles O58: `clockCycle_pend` for the running clock, `takeTurn_halted` and `driveCe_rising` for the halted one. -/
theorem clockCycle : Obligations.ClockCycle := by
  unfold Obligations.ClockCycle
  refine ⟨?_, fun s rest turn b w r hscript hc hturn => ?_, fun s hc => driveCe_rising hc⟩
  · intro s rest cnt hit line hscript hc awake hcnt hhit hline
    obtain ⟨mask, conf⟩ := clockCycle_mask_conf s
    have hit_eq : s.timer.cycle.2 = hit := by rw [timer_cycle_pulse, hhit, hcnt]; rfl
    refine ⟨s.timer.cycle.1, s.clockCycle.irq, ?_, fun stopped => ?_, fun running => ?_, mask, conf, fun j hj => ?_⟩
    · rw [step_clock hscript hc awake rfl, clockCycle_eq]
    · rw [timer_cycle_stopped stopped]
    · have counted : countedOn s.timer = cnt := hcnt.symm
      have met : hit = decide (cnt = s.timer.thr) := by
        simp only [hhit, ne_eq, running, not_false_eq_true, true_and]
      rw [timer_cycle_running running, counted, met]
      simp [preCountedOn]
    · rw [clockCycle_pend s hj, hit_eq]
      cases present : (decide (j < 6) || s.params.bareProcessor) with
      | false => simp only [Bool.and_false, Bool.false_and]
      | true => rw [lines_of_present hj present, hline]
  · rw [step_scripted hscript]
    have halted : State.clocked { s with script := rest } = false := hc
    exact takeTurn_halted halted hturn

end Sys2Proof.Proofs
end

section
/-! PROOFS. Decoding and encoding are inverse to each other (O1, O2, O4). -/

namespace Sys2Proof.Proofs

open Sys2Proof.Machine Sys2Proof.Laws

/-- Settles O1: the round trips of the single instructions. -/
theorem decodeEncode : Obligations.DecodeEncode := decode_encode

/-- Settles O4: each word is evaluated. -/
theorem specWordsDecode : Obligations.SpecWordsDecode := by
  unfold Obligations.SpecWordsDecode
  decide

/-! ## The operands as bits

The converse of the field lemmas of Laws/Encoding: every value of an operand field is written by one operand. -/

theorem reg_toBits_ofBits (f : BitVec 3) : (Reg.ofBits f).toBits = f := by revert f; decide
theorem cond_toBits_ofBits (f : BitVec 4) : (Cond.ofBits f).toBits = f := by revert f; decide
theorem shiftType_toBits_ofBits (f : BitVec 3) : (ShiftType.ofBits f).toBits = f := by revert f; decide
theorem msrPart_toBits_ofBits (f : BitVec 2) : (MsrPart.ofBits f).toBits = f := by revert f; decide
theorem flagSet_toBit_ofBit (u : Bool) : (FlagSet.ofBit u).toBit = u := by cases u <;> rfl
theorem cp_toBit_ofBit (n : Bool) : (Cp.ofBit n).toBit = n := by cases n <;> rfl
theorem offset_bitI_ofBits (i : Bool) (f : BitVec 3) : (Offset.ofBits i f).bitI = i := by cases i <;> rfl

theorem offset_field_ofBits (i : Bool) (f : BitVec 3) : (Offset.ofBits i f).field = f := by
  cases i with
  | false => exact reg_toBits_ofBits f
  | true => rfl

/-- Bits X and U are read back from the mode of STPC, where they are not both set (R167, R172). -/
theorem stpcMode_bits : ∀ x u : Bool, (x && u) = false →
    (if x then StpcMode.exchange else if u then .user else .keep).bitX = x
      ∧ (if x then StpcMode.exchange else if u then .user else .keep).bitU = u := by decide

/-- Bits P and W are read back from the index mode, where they are not those of SWP (R194, R197). -/
theorem indexing_bits : ∀ p wb : Bool, (p && !wb) = false →
    (if p then Indexing.postWriteback else if wb then .preWriteback else .pre).bitP = p
      ∧ (if p then Indexing.postWriteback else if wb then .preWriteback else .pre).writesBack = wb := by decide

theorem regField_toBits (w : Word) (lo : Nat) : w.extractLsb' lo 3 = (regField w lo).toBits :=
  (reg_toBits_ofBits _).symm

theorem regField_inj {w : Word} {m n : Nat} :
    regField w m = regField w n ↔ w.extractLsb' m 3 = w.extractLsb' n 3 := by
  rw [← reg_toBits_inj, ← regField_toBits, ← regField_toBits]

/-! ## The fields of a word -/

theorem field_eq_iff {w : Word} {m k : Nat} {f : BitVec k} :
    w.extractLsb' m k = f ↔ ∀ i < k, w.getLsbD (m + i) = f.getLsbD i := by
  refine ⟨fun h i hi => by simp [← h, hi], fun h => BitVec.eq_of_getLsbD_eq fun i hi => ?_⟩
  rw [← h i hi]
  simp [hi]

theorem field_bit {w : Word} {i : Nat} {b : Bool} (h : w.getLsbD i = b) : w.extractLsb' i 1 = BitVec.ofBool b := by
  rw [field_eq_iff]
  intro j hj
  obtain rfl : j = 0 := by omega
  simp [h]

theorem field_of_toNat {k n : Nat} {f : BitVec k} (h : f.toNat = n) : f = BitVec.ofNat k n := by
  simp [← h]

/-- A field inside a field. -/
theorem field_within {w : Word} {m k : Nat} {f : BitVec k} (h : w.extractLsb' m k = f) (i l : Nat) (hl : i + l ≤ k) :
    w.extractLsb' (m + i) l = f.extractLsb' i l := by
  rw [field_eq_iff] at h ⊢
  intro j hj
  rw [Nat.add_assoc, h (i + j) (by omega)]
  simp [hj]

/-- Two neighbouring fields are one field. -/
theorem field_append {w : Word} {m n k l : Nat} {a : BitVec l} {b : BitVec k} (ha : w.extractLsb' n l = a)
    (hb : w.extractLsb' m k = b) (next : n = m + k := by rfl) : w.extractLsb' m (l + k) = a ++ b := by
  rw [← ha, ← hb, BitVec.extractLsb'_append_extractLsb'_eq_extractLsb' next]

/-- The field of all sixteen bits is the word. -/
theorem eq_of_field {w v : Word} (h : w.extractLsb' 0 16 = v) : v = w := by
  rw [← h, BitVec.extractLsb'_eq_self]

/-! ## A word is put together from the fields of its format -/

section Formats
variable {w : Word}

theorem encodeDp_of_fields {cmd : BitVec 4} {rd ra rb : BitVec 3} {sf : Bool} (hclass : w.extractLsb' 14 2 = 0#2)
    (hcmd : w.extractLsb' 10 4 = cmd) (hrd : w.extractLsb' 7 3 = rd) (hra : w.extractLsb' 4 3 = ra)
    (hsf : w.getLsbD 3 = sf) (hrb : w.extractLsb' 0 3 = rb) : encodeDp cmd rd ra sf rb = w :=
  eq_of_field
    (field_append (field_append (field_append (field_append (field_append hclass hcmd) hrd) hra) (field_bit hsf)) hrb)

theorem encodeMem_of_fields {p u wb l i : Bool} {rd ra off : BitVec 3} (hclass : w.extractLsb' 14 2 = 1#2)
    (hp : w.getLsbD 13 = p) (hu : w.getLsbD 12 = u) (hwb : w.getLsbD 11 = wb) (hl : w.getLsbD 10 = l)
    (hrd : w.extractLsb' 7 3 = rd) (hra : w.extractLsb' 4 3 = ra) (hi : w.getLsbD 3 = i)
    (hoff : w.extractLsb' 0 3 = off) : encodeMem p u wb l rd ra i off = w :=
  have access := field_append (field_append (field_append (field_append hclass (field_bit hp)) (field_bit hu))
    (field_bit hwb)) (field_bit hl)
  eq_of_field (field_append (field_append (field_append (field_append access hrd) hra) (field_bit hi)) hoff)

theorem encodeBranch_of_fields {cond : Cond} {l : Bool} {off : BitVec 9} (hclass : w.extractLsb' 14 2 = 2#2)
    (hcond : w.extractLsb' 10 4 = cond.toBits) (hl : w.getLsbD 9 = l) (hoff : w.extractLsb' 0 9 = off) :
    encodeBranch cond l off = w :=
  eq_of_field (field_append (field_append (field_append hclass hcond) (field_bit hl)) hoff)

theorem encodeImm_of_fields {m : Bool} {rd : Reg} {high : BitVec 1} {low : BitVec 7}
    (htop : w.extractLsb' 12 4 = 0b1100#4) (hm : w.getLsbD 11 = m) (hhigh : w.extractLsb' 10 1 = high)
    (hrd : w.extractLsb' 7 3 = rd.toBits) (hlow : w.extractLsb' 0 7 = low) : encodeImm m rd (high ++ low) = w := by
  unfold encodeImm
  rw [BitVec.extractLsb'_append_eq_left, BitVec.extractLsb'_append_eq_right]
  exact eq_of_field (field_append (field_append (field_append (field_append htop (field_bit hm)) hhigh) hrd) hlow)

theorem encodeBit_of_fields {ms : BitVec 2} {rd : BitVec 3} {bit : BitVec 4} (hclass : w.extractLsb' 14 2 = 3#2)
    (hgroup : w.extractLsb' 10 4 = 0b01#2 ++ ms) (hrd : w.extractLsb' 7 3 = rd) (hbit : w.extractLsb' 0 4 = bit) :
    encodeBit ms rd (regField w 4).toBits bit = w :=
  have kind : w.extractLsb' 12 2 = 0b01#2 :=
    (field_within hgroup 2 2 (by decide)).trans BitVec.extractLsb'_append_eq_left
  have option : w.extractLsb' 10 2 = ms :=
    (field_within hgroup 0 2 (by decide)).trans BitVec.extractLsb'_append_eq_right
  have opcode : w.extractLsb' 12 4 = 0b1101#4 := field_append hclass kind
  eq_of_field (field_append (field_append (field_append (field_append opcode option) hrd) (regField_toBits ..)) hbit)

theorem encodeRegBranch_of_fields {a : Bool} (htop : w.extractLsb' 9 7 = 0b1111011#7) (ha : w.getLsbD 8 = a) :
    encodeRegBranch a (w.getLsbD 7) (Cond.ofBits (w.extractLsb' 3 4)) (regField w 0) = w :=
  eq_of_field (field_append (field_append (field_append (field_append htop (field_bit ha)) (field_bit rfl))
    (cond_toBits_ofBits _).symm) (regField_toBits ..))

/-- The coprocessor formats (R88). -/
theorem cpWord_of_fields {k : BitVec 5} {a b cmd : BitVec 3} {l : BitVec 1} (htop : w.extractLsb' 11 5 = k)
    (ha : w.extractLsb' 7 3 = a) (hb : w.extractLsb' 4 3 = b) (hl : w.extractLsb' 3 1 = l)
    (hcmd : w.extractLsb' 0 3 = cmd) : k ++ BitVec.ofBool (Cp.ofBit (w.getLsbD 10)).toBit ++ a ++ b ++ l
      ++ cmd = w :=
  have cp := field_append htop (field_bit (cp_toBit_ofBit (w.getLsbD 10)).symm)
  eq_of_field (field_append (field_append (field_append (field_append cp ha) hb) hl) hcmd)

end Formats

/-! ## What the decoder accepts is encoded as the word it was decoded from -/

/-- An answer of the decoder to `w` that is an instruction is a well-formed one with the word `w`. -/
def Encodes (w : Word) : Except Reserved Instr → Prop
  | .ok i => encode i = w ∧ i.WellFormed = true
  | .error _ => True

theorem Encodes.ite {w : Word} {c : Prop} [Decidable c] {r q : Except Reserved Instr} (hr : c → Encodes w r)
    (hq : ¬c → Encodes w q) : Encodes w (if c then r else q) := by
  split
  · exact hr ‹_›
  · exact hq ‹_›

section DataProcessing
variable {w : Word} (hclass : w.extractLsb' 14 2 = 0#2)
include hclass

theorem decodeCmp_encodes (hcmd : w.extractLsb' 10 4 = 6#4) : Encodes w (decodeCmp w) := by
  unfold decodeCmp
  refine .ite (fun hs => .ite (fun hrd => ?cmp) fun _ => trivial) fun hs => .ite (fun _ => trivial) fun unused => ?ldsr
  case cmp => exact ⟨encodeDp_of_fields hclass hcmd hrd (regField_toBits ..) hs (regField_toBits ..), rfl⟩
  case ldsr =>
    simp only [Bool.not_eq_true, Bool.or_eq_false_iff, bne_eq_false_iff_eq] at hs unused
    obtain ⟨bit4, low⟩ := unused
    have options := field_append (msrPart_toBits_ofBits _).symm (field_bit bit4)
    exact ⟨encodeDp_of_fields hclass hcmd (regField_toBits ..) options hs low, rfl⟩

theorem decodeCpx_encodes (hcmd : w.extractLsb' 10 4 = 7#4) : Encodes w (decodeCpx w) := by
  unfold decodeCpx
  refine .ite (fun hs => .ite (fun _ => trivial) fun bit7 => ?cpx) fun hs => .ite (fun bit4 => .ite (fun _ => trivial)
    fun unused => ?staf) fun bit4 => .ite (fun hrd => ?stsr) fun _ => trivial
  case cpx =>
    rw [Bool.not_eq_true] at bit7
    have options := field_append (field_append (field_bit (i := 9) rfl) (field_bit (i := 8) rfl)) (field_bit bit7)
    exact ⟨encodeDp_of_fields hclass hcmd options (regField_toBits ..) hs (regField_toBits ..), rfl⟩
  case staf =>
    simp only [Bool.not_eq_true, Bool.or_eq_false_iff, Bool.not_eq_false'] at hs unused
    obtain ⟨bit9, bit6⟩ := unused
    have tn := field_append (field_append (field_bit bit9) (field_bit (i := 8) rfl)) (field_bit (i := 7) rfl)
    have set := field_append (field_append (field_bit bit6) (field_bit (flagSet_toBit_ofBit _).symm)) (field_bit bit4)
    have ocz := field_append (field_append (field_bit (w := w) (i := 2) rfl) (field_bit (i := 1) rfl))
      (field_bit (i := 0) rfl)
    exact ⟨encodeDp_of_fields hclass hcmd tn set hs ocz, rfl⟩
  case stsr =>
    rw [Bool.not_eq_true] at hs bit4
    have options := field_append (msrPart_toBits_ofBits _).symm (field_bit bit4)
    exact ⟨encodeDp_of_fields hclass hcmd hrd options hs (regField_toBits ..), rfl⟩

theorem decodeTeq_encodes (hcmd : w.extractLsb' 10 4 = 13#4) : Encodes w (decodeTeq w) := by
  unfold decodeTeq
  refine .ite (fun hs => .ite (fun hrd => ?teq) fun _ => trivial) fun hs => .ite (fun _ => trivial) fun unused =>
    .ite (fun _ => trivial) fun notBoth => ?stpc
  case teq => exact ⟨encodeDp_of_fields hclass hcmd hrd (regField_toBits ..) hs (regField_toBits ..), rfl⟩
  case stpc =>
    rw [Bool.not_eq_true] at hs unused notBoth
    rw [bne_eq_false_iff_eq] at unused
    obtain ⟨hx, hu⟩ := stpcMode_bits _ _ notBoth
    have rd := field_append unused (field_bit hx.symm)
    have low := field_append (field_append (field_bit (w := w) (i := 2) rfl) (field_bit (i := 1) rfl))
      (field_bit hu.symm)
    exact ⟨encodeDp_of_fields hclass hcmd rd (regField_toBits ..) hs low, rfl⟩

theorem decodeTst_encodes (hcmd : w.extractLsb' 10 4 = 14#4) : Encodes w (decodeTst w) := by
  unfold decodeTst
  refine .ite (fun hs => .ite (fun hrd => ?tst) fun _ => trivial) fun hs => .ite (fun _ => trivial) fun unused => ?ldpc
  case tst => exact ⟨encodeDp_of_fields hclass hcmd hrd (regField_toBits ..) hs (regField_toBits ..), rfl⟩
  case ldpc =>
    simp only [Bool.not_eq_true, Bool.or_eq_false_iff, bne_eq_false_iff_eq] at hs unused
    obtain ⟨hra, hrb⟩ := unused
    exact ⟨encodeDp_of_fields hclass hcmd (regField_toBits ..) hra hs hrb, rfl⟩

/-- The commands with two registers, the S bit and a third field. -/
theorem encodeDp_registers {cmd : BitVec 4} {rb : BitVec 3} (hcmd : w.extractLsb' 10 4 = cmd)
    (hrb : w.extractLsb' 0 3 = rb) : encodeDp cmd (regField w 7).toBits (regField w 4).toBits (w.getLsbD 3) rb = w :=
  encodeDp_of_fields hclass hcmd (regField_toBits ..) (regField_toBits ..) rfl hrb

/-- The commands that are another instruction where the fields Ra and Rb are the same (R83). -/
theorem encodes_same {i j : Instr} {cmd : BitVec 4} (hcmd : w.extractLsb' 10 4 = cmd)
    (hi : encode i = encodeDp cmd (regField w 7).toBits (regField w 4).toBits (w.getLsbD 3) (regField w 4).toBits)
    (wfi : i.WellFormed = true)
    (hj : encode j = encodeDp cmd (regField w 7).toBits (regField w 4).toBits (w.getLsbD 3) (regField w 0).toBits)
    (wfj : j.WellFormed = decide (regField w 4 ≠ regField w 0)) :
    Encodes w (.ok (if w.extractLsb' 4 3 = w.extractLsb' 0 3 then i else j)) := by
  split
  · next same => exact ⟨hi.trans (encodeDp_registers hclass hcmd (same.symm.trans (regField_toBits ..))), wfi⟩
  · next different =>
    exact ⟨hj.trans (encodeDp_registers hclass hcmd (regField_toBits ..)),
      wfj.trans (decide_eq_true (mt regField_inj.1 different))⟩

theorem decodeDataProcessing_encodes : Encodes w (decodeDataProcessing w) := by
  have reg := regField_toBits w 0
  unfold decodeDataProcessing
  dsimp only
  split
  · next inc => exact ⟨encodeDp_registers hclass (field_of_toNat inc) rfl, rfl⟩
  · next dec => exact ⟨encodeDp_registers hclass (field_of_toNat dec) rfl, rfl⟩
  · next add => exact ⟨encodeDp_registers hclass (field_of_toNat add) reg, rfl⟩
  · next adc => exact ⟨encodeDp_registers hclass (field_of_toNat adc) reg, rfl⟩
  · next sub => exact encodes_same hclass (field_of_toNat sub) rfl rfl rfl rfl
  · next sbc => exact encodes_same hclass (field_of_toNat sbc) rfl rfl rfl rfl
  · next cmp => exact decodeCmp_encodes hclass (field_of_toNat cmp)
  · next cpx => exact decodeCpx_encodes hclass (field_of_toNat cpx)
  · next and => exact encodes_same hclass (field_of_toNat and) rfl rfl rfl rfl
  · next orr => exact encodes_same hclass (field_of_toNat orr) rfl rfl rfl rfl
  · next eor => exact ⟨encodeDp_registers hclass (field_of_toNat eor) reg, rfl⟩
  · next nand => exact ⟨encodeDp_registers hclass (field_of_toNat nand) reg, rfl⟩
  · next bic => exact ⟨encodeDp_registers hclass (field_of_toNat bic) reg, rfl⟩
  · next teq => exact decodeTeq_encodes hclass (field_of_toNat teq)
  · next tst => exact decodeTst_encodes hclass (field_of_toNat tst)
  · have sft : (w.extractLsb' 10 4).toNat = 15 := by
      simp only [imp_false] at *
      omega
    exact ⟨encodeDp_registers hclass (field_of_toNat sft) (shiftType_toBits_ofBits _).symm, rfl⟩

end DataProcessing

section MemoryAccess
variable {w : Word} (hclass : w.extractLsb' 14 2 = 1#2)
include hclass

/-- The third operand field of SWP is Rb, and the row of SWP keeps it apart from Rd (R197). -/
theorem decodeSwp_encodes (hp : w.getLsbD 13 = true) (hwb : w.getLsbD 11 = false) : Encodes w (decodeSwp w) := by
  unfold decodeSwp
  refine .ite (fun _ => trivial) fun unused => .ite (fun _ => trivial) fun different => ?swp
  simp only [Bool.not_eq_true, Bool.or_eq_false_iff] at unused
  obtain ⟨⟨hu, hl⟩, hi⟩ := unused
  exact ⟨encodeMem_of_fields hclass hp hu hwb hl (regField_toBits ..) (regField_toBits ..) hi (regField_toBits ..),
    decide_eq_true (mt regField_inj.1 different)⟩

theorem decodeMemory_encodes : Encodes w (decodeMemory w) := by
  unfold decodeMemory
  dsimp only
  refine .ite (fun swp => ?_) fun indexed => ?_
  · rw [Bool.and_eq_true, Bool.not_eq_true'] at swp
    obtain ⟨hp, hwb⟩ := swp
    exact decodeSwp_encodes hclass hp hwb
  · obtain ⟨hp, hwb⟩ := indexing_bits _ _ (Bool.eq_false_of_not_eq_true indexed)
    have word {l : Bool} (hl : w.getLsbD 10 = l) := encodeMem_of_fields hclass hp.symm rfl hwb.symm hl
      (regField_toBits w 7) (regField_toBits w 4) (offset_bitI_ofBits _ (w.extractLsb' 0 3)).symm
      (offset_field_ofBits (w.getLsbD 3) _).symm
    refine .ite (fun str => ⟨word str, rfl⟩) fun ldr => .ite (fun _ => trivial) fun form => ?_
    refine ⟨word (Bool.eq_false_of_not_eq_true ldr), ?_⟩
    simp only [Instr.WellFormed, hwb, ne_eq, regField_inj, decide_not, ← Bool.not_and]
    exact Bool.not_eq_true' _ ▸ Bool.eq_false_of_not_eq_true form

end MemoryAccess

section Upper
variable {w : Word} (hclass : w.extractLsb' 14 2 = 3#2)
include hclass

/-- The store-to-T-flag group: bits 9:7 choose the instruction (R87). -/
theorem decodeStoreBit_encodes (hgroup : w.extractLsb' 10 4 = 7#4) : Encodes w (decodeStoreBit w) := by
  have stb {rd : BitVec 3} {bit : BitVec 4} (hrd : (w.extractLsb' 7 3).toNat = rd.toNat)
      (hbit : w.extractLsb' 0 4 = bit) : encodeBit 0b11 rd (regField w 4).toBits bit = w :=
    encodeBit_of_fields hclass hgroup (BitVec.eq_of_toNat_eq hrd) hbit
  have index (bit3 : ¬w.getLsbD 3 = true) : w.extractLsb' 0 4 = 0#1 ++ (regField w 0).toBits :=
    field_append (field_bit (Bool.eq_false_of_not_eq_true bit3)) (regField_toBits ..)
  unfold decodeStoreBit
  dsimp only
  split
  · next hrd => exact ⟨stb hrd rfl, rfl⟩
  · next hrd => exact ⟨stb hrd rfl, rfl⟩
  · next hrd => exact .ite (fun hbit => ⟨stb hrd hbit, rfl⟩) fun _ => trivial
  · next hrd => exact .ite (fun hbit => ⟨stb hrd hbit, rfl⟩) fun _ => trivial
  · next hrd => exact .ite (fun _ => trivial) fun bit3 => ⟨stb hrd (index bit3), rfl⟩
  · next hrd => exact .ite (fun _ => trivial) fun bit3 => ⟨stb hrd (index bit3), rfl⟩
  · exact trivial

theorem ldil_encodes (high : w.extractLsb' 11 3 = 0b000#3) :
    Encodes w (.ok (.ldil (regField w 7) (w.extractLsb' 10 1 ++ w.extractLsb' 0 7))) :=
  ⟨encodeImm_of_fields (field_append hclass (field_within high 1 2 (by decide))) (field_eq_iff.1 high 0 (by decide))
    rfl (regField_toBits ..) rfl, rfl⟩

theorem ldih_encodes (high : w.extractLsb' 11 3 = 0b001#3) :
    Encodes w (.ok (.ldih (regField w 7) (w.extractLsb' 10 1 ++ w.extractLsb' 0 7))) :=
  ⟨encodeImm_of_fields (field_append hclass (field_within high 1 2 (by decide))) (field_eq_iff.1 high 0 (by decide))
    rfl (regField_toBits ..) rfl, rfl⟩

theorem cdp_encodes (high : w.extractLsb' 11 3 = 0b100#3) :
    Encodes w (if w.getLsbD 3 then .error .cdpUnusedBit
      else .ok (.cdp (Cp.ofBit (w.getLsbD 10)) (w.extractLsb' 7 3) (w.extractLsb' 4 3) (w.extractLsb' 0 3))) := by
  have opcode : w.extractLsb' 11 5 = 0b11100#5 := field_append hclass high
  refine .ite (fun _ => trivial) fun bit3 => ?_
  have clear : w.extractLsb' 3 1 = 0#1 := field_bit (Bool.eq_false_of_not_eq_true bit3)
  exact ⟨cpWord_of_fields opcode rfl rfl clear rfl, rfl⟩

theorem mrc_encodes (high : w.extractLsb' 11 3 = 0b101#3) :
    Encodes w (if w.getLsbD 3 then
        .ok (.mcr (Cp.ofBit (w.getLsbD 10)) (w.extractLsb' 7 3) (regField w 4) (w.extractLsb' 0 3))
      else .ok (.mrc (Cp.ofBit (w.getLsbD 10)) (regField w 7) (w.extractLsb' 4 3) (w.extractLsb' 0 3))) := by
  have opcode : w.extractLsb' 11 5 = 0b11101#5 := field_append hclass high
  refine .ite (fun bit3 => ?mcr) fun bit3 => ?mrc
  case mcr =>
    have set : w.extractLsb' 3 1 = 1#1 := field_bit bit3
    exact ⟨cpWord_of_fields opcode rfl (regField_toBits ..) set rfl, rfl⟩
  case mrc =>
    have clear : w.extractLsb' 3 1 = 0#1 := field_bit (Bool.eq_false_of_not_eq_true bit3)
    exact ⟨cpWord_of_fields opcode (regField_toBits ..) rfl clear rfl, rfl⟩

theorem mul_encodes (hgroup : w.extractLsb' 10 4 = 12#4) :
    Encodes w (if w.getLsbD 3 then .error .mulUnusedBit
      else .ok (.mul (regField w 7) (regField w 4) (regField w 0))) := by
  have opcode : w.extractLsb' 10 6 = 0b111100#6 := field_append hclass hgroup
  refine .ite (fun _ => trivial) fun bit3 => ?_
  have clear : w.extractLsb' 3 1 = 0#1 := field_bit (Bool.eq_false_of_not_eq_true bit3)
  exact ⟨eq_of_field (field_append (field_append (field_append (field_append opcode (regField_toBits ..))
    (regField_toBits ..)) clear) (regField_toBits ..)), rfl⟩

/-- SLEEP and the branches to a register: bit 9 tells them apart (R89). -/
theorem sleep_encodes (hgroup : w.extractLsb' 10 4 = 13#4) :
    Encodes w (if w.getLsbD 9 then
        if w.getLsbD 8 then .ok (.rba (w.getLsbD 7) (Cond.ofBits (w.extractLsb' 3 4)) (regField w 0))
        else .ok (.rbr (w.getLsbD 7) (Cond.ofBits (w.extractLsb' 3 4)) (regField w 0))
      else .ok (.sleep (w.extractLsb' 0 9))) := by
  have opcode : w.extractLsb' 10 6 = 0b111101#6 := field_append hclass hgroup
  refine .ite (fun bit9 => ?_) fun bit9 => ?sleep
  · have branch : w.extractLsb' 9 7 = 0b1111011#7 := field_append opcode (field_bit bit9)
    exact .ite (fun rba => ⟨encodeRegBranch_of_fields branch rba, rfl⟩) fun rbr =>
      ⟨encodeRegBranch_of_fields branch (Bool.eq_false_of_not_eq_true rbr), rfl⟩
  case sleep =>
    have sleep : w.extractLsb' 9 7 = 0b1111010#7 :=
      field_append opcode (field_bit (Bool.eq_false_of_not_eq_true bit9))
    exact ⟨eq_of_field (field_append sleep (rfl : w.extractLsb' 0 9 = _)), rfl⟩

theorem mv_encodes (hgroup : w.extractLsb' 10 4 = 14#4) :
    Encodes w (.ok (.mv (regField w 7) (Cond.ofBits (w.extractLsb' 3 4)) (regField w 0))) := by
  have opcode : w.extractLsb' 10 6 = 0b111110#6 := field_append hclass hgroup
  exact ⟨eq_of_field (field_append (field_append (field_append opcode (regField_toBits ..))
    (cond_toBits_ofBits _).symm) (regField_toBits ..)), rfl⟩

theorem syscall_encodes (hgroup : w.extractLsb' 10 4 = 15#4) : Encodes w (.ok (.syscall (w.extractLsb' 0 10))) := by
  have opcode : w.extractLsb' 10 6 = 0b111111#6 := field_append hclass hgroup
  exact ⟨eq_of_field (field_append opcode (rfl : w.extractLsb' 0 10 = _)), rfl⟩

theorem decodeUpper_encodes : Encodes w (decodeUpper w) := by
  have high {g : Nat} (hg : (w.extractLsb' 10 4).toNat = g) : w.extractLsb' 11 3 = (BitVec.ofNat 4 g).extractLsb' 1 3 :=
    field_within (field_of_toNat hg) 1 3 (by decide)
  have bit {ms : BitVec 2} (hg : w.extractLsb' 10 4 = 0b01#2 ++ ms) :
      encodeBit ms (regField w 7).toBits (regField w 4).toBits (w.extractLsb' 0 4) = w :=
    encodeBit_of_fields hclass hg (regField_toBits ..) rfl
  unfold decodeUpper
  dsimp only
  split
  · next hg => exact ldil_encodes hclass (high hg)
  · next hg => exact ldil_encodes hclass (high hg)
  · next hg => exact ldih_encodes hclass (high hg)
  · next hg => exact ldih_encodes hclass (high hg)
  · next hg => exact ⟨bit (field_of_toNat hg), rfl⟩
  · next hg => exact ⟨bit (field_of_toNat hg), rfl⟩
  · next hg => exact ⟨bit (field_of_toNat hg), rfl⟩
  · next hg => exact decodeStoreBit_encodes hclass (field_of_toNat hg)
  · next hg => exact cdp_encodes hclass (high hg)
  · next hg => exact cdp_encodes hclass (high hg)
  · next hg => exact mrc_encodes hclass (high hg)
  · next hg => exact mrc_encodes hclass (high hg)
  · next hg => exact mul_encodes hclass (field_of_toNat hg)
  · next hg => exact sleep_encodes hclass (field_of_toNat hg)
  · next hg => exact mv_encodes hclass (field_of_toNat hg)
  · have group : (w.extractLsb' 10 4).toNat = 15 := by
      simp only [imp_false] at *
      omega
    exact syscall_encodes hclass (field_of_toNat group)

end Upper

theorem decode_encodes (w : Word) : Encodes w (decode w) := by
  unfold decode
  dsimp only
  split
  · next hclass => exact decodeDataProcessing_encodes (field_of_toNat hclass)
  · next hclass => exact decodeMemory_encodes (field_of_toNat hclass)
  · next hclass =>
    have class2 := field_of_toNat hclass
    have cond := (cond_toBits_ofBits (w.extractLsb' 10 4)).symm
    split
    · next bl => exact ⟨encodeBranch_of_fields class2 cond bl rfl, rfl⟩
    · next b => exact ⟨encodeBranch_of_fields class2 cond (Bool.eq_false_of_not_eq_true b) rfl, rfl⟩
  · have class3 : (w.extractLsb' 14 2).toNat = 3 := by
      simp only [imp_false] at *
      omega
    exact decodeUpper_encodes (field_of_toNat class3)

/-- Settles O2: the word is put together from the fields that the decoder read. -/
theorem encodeDecode : Obligations.EncodeDecode := by
  unfold Obligations.EncodeDecode
  intro w i h
  have encodes := decode_encodes w
  rw [h] at encodes
  exact encodes

end Sys2Proof.Proofs
end

section
/-! PROOFS. What the decoder refuses (O3). -/

namespace Sys2Proof.Proofs

open Sys2Proof.Machine Sys2Proof.Laws

/-! ## The table of R105 in the fields of a class

The rows that words of a class can meet, with fields in the place of masks. Both sides are the same Boolean expression
in the single bits of the word. -/

/-- A mask compares bit by bit. -/
theorem bitsAre_eq_all (w mask value : Word) :
    bitsAre w mask value = (List.range 16).all fun i => (w.getLsbD i && mask.getLsbD i) == value.getLsbD i := by
  rw [bitsAre, Bool.eq_iff_iff, decide_eq_true_iff, List.all_eq_true]
  simp only [List.mem_range, beq_iff_eq, ← BitVec.getLsbD_and]
  exact ⟨fun h i _ => h ▸ rfl, fun h => BitVec.eq_of_getLsbD_eq h⟩

/-- A field compares bit by bit. -/
theorem field_beq_eq_all (w : Word) (m : Nat) {k : Nat} (f : BitVec k) :
    (w.extractLsb' m k == f) = (List.range k).all fun i => w.getLsbD (m + i) == f.getLsbD i := by
  rw [Bool.eq_iff_iff, beq_iff_eq, List.all_eq_true, field_eq_iff]
  simp only [List.mem_range, beq_iff_eq]

/-- A shift and a mask take out a 3-bit field. -/
theorem shifted_and_seven (w : Word) (m : Nat) : (w >>> m) &&& 7 = (w.extractLsb' m 3).setWidth 16 := by
  apply BitVec.eq_of_toNat_eq
  have small : w.toNat >>> m % 8 < 65536 := by omega
  simp [Nat.and_two_pow_sub_one_eq_mod _ 3, Nat.mod_eq_of_lt small]

theorem setWidth_inj {f g : BitVec 3} : f.setWidth 16 = g.setWidth 16 ↔ f = g :=
  ⟨fun h => by simpa using congrArg (BitVec.setWidth 3) h, fun h => h ▸ rfl⟩

theorem shifted_and_seven_inj (w : Word) (m n : Nat) :
    (w >>> m) &&& 7 = (w >>> n) &&& 7 ↔ w.extractLsb' m 3 = w.extractLsb' n 3 := by
  rw [shifted_and_seven, shifted_and_seven, setWidth_inj]

/-- Class 00: the compares and the five instructions in their words with S = 0. -/
theorem reserved_dataProcessing {w : Word} (hclass : w.extractLsb' 14 2 = 0#2) :
    reservedByTable w =
      (let cmd := w.extractLsb' 10 4
      (w.getLsbD 3 && (cmd == 6#4 || cmd == 13#4 || cmd == 14#4) && w.extractLsb' 7 3 != 0#3)
      || (w.getLsbD 3 && cmd == 7#4 && w.getLsbD 7)
      || (!w.getLsbD 3 && cmd == 6#4 && (w.getLsbD 4 || w.extractLsb' 0 3 != 0#3))
      || (!w.getLsbD 3 && cmd == 7#4 && !w.getLsbD 4 && w.extractLsb' 7 3 != 0#3)
      || (!w.getLsbD 3 && cmd == 7#4 && w.getLsbD 4 && (w.getLsbD 9 || !w.getLsbD 6))
      || (!w.getLsbD 3 && cmd == 14#4 && (w.extractLsb' 4 3 != 0#3 || w.extractLsb' 0 3 != 0#3))
      || (!w.getLsbD 3 && cmd == 13#4 && (w.extractLsb' 8 2 != 0#2 || (w.getLsbD 7 && w.getLsbD 0)))) := by
  have h15 : w.getLsbD 15 = false := field_eq_iff.1 hclass 1 (by decide)
  have h14 : w.getLsbD 14 = false := field_eq_iff.1 hclass 0 (by decide)
  simp [reservedByTable, bitsAre_eq_all, field_beq_eq_all, List.range, List.range.loop, h15, h14, bne,
    Bool.and_or_distrib_left, Bool.and_comm, Bool.and_left_comm, -BitVec.getLsbD_eq_getElem]

/-- Class 01: the form without an index mode, LDR into its base register, SWP with Rd = Rb. -/
theorem reserved_memory {w : Word} (hclass : w.extractLsb' 14 2 = 1#2) :
    reservedByTable w =
      ((w.getLsbD 13 && !w.getLsbD 11 && (w.getLsbD 12 || w.getLsbD 10 || w.getLsbD 3))
      || (w.getLsbD 11 && !w.getLsbD 10 && decide (w.extractLsb' 7 3 = w.extractLsb' 4 3))
      || (w.getLsbD 13 && !w.getLsbD 11 && !w.getLsbD 12 && !w.getLsbD 10 && !w.getLsbD 3
          && decide (w.extractLsb' 7 3 = w.extractLsb' 0 3))) := by
  have h15 : w.getLsbD 15 = false := field_eq_iff.1 hclass 1 (by decide)
  have h14 : w.getLsbD 14 = true := field_eq_iff.1 hclass 0 (by decide)
  have ldr : (w >>> 7) &&& 7 = (w >>> 4) &&& 7 ↔ w.extractLsb' 7 3 = w.extractLsb' 4 3 := shifted_and_seven_inj w 7 4
  have swp : (w >>> 7) &&& 7 = w &&& 7 ↔ w.extractLsb' 7 3 = w.extractLsb' 0 3 := shifted_and_seven_inj w 7 0
  simp only [reservedByTable, ldr, swp]
  simp [bitsAre_eq_all, List.range, List.range.loop, h15, h14, -BitVec.getLsbD_eq_getElem]
  ac_rfl

/-- Class 10 has no reserved word. -/
theorem reserved_branch {w : Word} (hclass : w.extractLsb' 14 2 = 2#2) : reservedByTable w = false := by
  have h15 : w.getLsbD 15 = true := field_eq_iff.1 hclass 1 (by decide)
  have h14 : w.getLsbD 14 = false := field_eq_iff.1 hclass 0 (by decide)
  simp [reservedByTable, bitsAre_eq_all, List.range, List.range.loop, h15, h14, -BitVec.getLsbD_eq_getElem]

/-- Class 11: the store-to-T-flag group, CDP and MUL. -/
theorem reserved_upper {w : Word} (hclass : w.extractLsb' 14 2 = 3#2) :
    reservedByTable w =
      (let group := w.extractLsb' 10 4
      (group == 7#4 && (w.extractLsb' 8 2 == 3#2 || (w.extractLsb' 8 2 == 1#2 && w.extractLsb' 0 4 != 0#4)
          || (w.extractLsb' 8 2 == 2#2 && w.getLsbD 3)))
      || ((group == 8#4 || group == 9#4) && w.getLsbD 3)
      || (group == 12#4 && w.getLsbD 3)) := by
  have h15 : w.getLsbD 15 = true := field_eq_iff.1 hclass 1 (by decide)
  have h14 : w.getLsbD 14 = true := field_eq_iff.1 hclass 0 (by decide)
  cases h10 : w.getLsbD 10 <;>
    simp [reservedByTable, bitsAre_eq_all, field_beq_eq_all, List.range, List.range.loop, h15, h14, h10, bne,
      Bool.and_comm, Bool.and_left_comm, -BitVec.getLsbD_eq_getElem]

/-! ## What the decoder refuses -/

/-- Whether an answer of the decoder is a refusal. -/
def refused : Except Reserved Instr → Bool
  | .ok _ => false
  | .error _ => true

@[simp] theorem refused_ok (i : Instr) : refused (.ok i) = false := rfl
@[simp] theorem refused_error (r : Reserved) : refused (.error r) = true := rfl
@[simp] theorem refused_ite (c : Prop) [Decidable c] (r q : Except Reserved Instr) :
    refused (if c then r else q) = if c then refused r else refused q := apply_ite ..

theorem refused_iff (q : Except Reserved Instr) : refused q = true ↔ ∃ r, q = .error r := by
  cases q <;> simp

section DataProcessing
variable {w : Word} (hclass : w.extractLsb' 14 2 = 0#2)
include hclass

theorem decodeCmp_refused (hcmd : w.extractLsb' 10 4 = 6#4) : refused (decodeCmp w) = reservedByTable w := by
  simp only [decodeCmp, reserved_dataProcessing hclass, hcmd]
  cases w.getLsbD 3 <;> simp [bne, Bool.beq_eq_decide_eq]

theorem decodeCpx_refused (hcmd : w.extractLsb' 10 4 = 7#4) : refused (decodeCpx w) = reservedByTable w := by
  simp only [decodeCpx, reserved_dataProcessing hclass, hcmd]
  cases w.getLsbD 3 <;> cases w.getLsbD 4 <;> simp [bne, Bool.beq_eq_decide_eq]

theorem decodeTeq_refused (hcmd : w.extractLsb' 10 4 = 13#4) : refused (decodeTeq w) = reservedByTable w := by
  simp only [decodeTeq, reserved_dataProcessing hclass, hcmd]
  cases w.getLsbD 3 <;> simp [bne, Bool.beq_eq_decide_eq]

theorem decodeTst_refused (hcmd : w.extractLsb' 10 4 = 14#4) : refused (decodeTst w) = reservedByTable w := by
  simp only [decodeTst, reserved_dataProcessing hclass, hcmd]
  cases w.getLsbD 3 <;> simp [bne, Bool.beq_eq_decide_eq]

/-- The commands without a row in the table. -/
theorem plain_dataProcessing {cmd : BitVec 4} (hcmd : w.extractLsb' 10 4 = cmd)
    (plain : cmd ∉ [6#4, 7#4, 13#4, 14#4]) : reservedByTable w = false := by
  simp only [List.mem_cons, List.not_mem_nil, or_false, not_or] at plain
  obtain ⟨cmp, cpx, teq, tst⟩ := plain
  simp [reserved_dataProcessing hclass, hcmd, cmp, cpx, teq, tst]

theorem decodeDataProcessing_refused : refused (decodeDataProcessing w) = reservedByTable w := by
  unfold decodeDataProcessing
  dsimp only
  split
  case h_7 cmp => exact decodeCmp_refused hclass (field_of_toNat cmp)
  case h_8 cpx => exact decodeCpx_refused hclass (field_of_toNat cpx)
  case h_14 teq => exact decodeTeq_refused hclass (field_of_toNat teq)
  case h_15 tst => exact decodeTst_refused hclass (field_of_toNat tst)
  case h_16 =>
    have sft : (w.extractLsb' 10 4).toNat = 15 := by
      simp only [imp_false] at *
      omega
    exact (plain_dataProcessing hclass (field_of_toNat sft) (by decide)).symm
  all_goals exact (plain_dataProcessing hclass (field_of_toNat ‹(w.extractLsb' 10 4).toNat = _›) (by decide)).symm

end DataProcessing

section MemoryAccess
variable {w : Word} (hclass : w.extractLsb' 14 2 = 1#2)
include hclass

theorem decodeSwp_refused (hp : w.getLsbD 13 = true) (hwb : w.getLsbD 11 = false) :
    refused (decodeSwp w) = reservedByTable w := by
  simp only [decodeSwp, reserved_memory hclass, hp, hwb]
  cases form : w.getLsbD 12 || w.getLsbD 10 || w.getLsbD 3 with
  | true => simp
  | false =>
    simp only [Bool.or_eq_false_iff] at form
    simp [form, -BitVec.getLsbD_eq_getElem]

theorem decodeMemory_refused : refused (decodeMemory w) = reservedByTable w := by
  unfold decodeMemory
  dsimp only
  cases swp : w.getLsbD 13 && !w.getLsbD 11 with
  | true =>
    rw [Bool.and_eq_true, Bool.not_eq_true'] at swp
    obtain ⟨hp, hwb⟩ := swp
    exact decodeSwp_refused hclass hp hwb
  | false =>
    cases store : w.getLsbD 10 <;> simp [reserved_memory hclass, swp, store, -BitVec.getLsbD_eq_getElem]

end MemoryAccess

section Upper
variable {w : Word} (hclass : w.extractLsb' 14 2 = 3#2)
include hclass

theorem decodeStoreBit_refused (hgroup : w.extractLsb' 10 4 = 7#4) :
    refused (decodeStoreBit w) = reservedByTable w := by
  have high {g : Nat} (hg : (w.extractLsb' 7 3).toNat = g) : w.extractLsb' 8 2 = (BitVec.ofNat 3 g).extractLsb' 1 2 :=
    field_within (field_of_toNat hg) 1 2 (by decide)
  rw [reserved_upper hclass, hgroup]
  unfold decodeStoreBit
  dsimp only
  split
  case h_7 =>
    have both : (w.extractLsb' 7 3).toNat = 6 ∨ (w.extractLsb' 7 3).toNat = 7 := by
      simp only [imp_false] at *
      omega
    rcases both with hrd | hrd <;> simp [high hrd]
  all_goals simp [high ‹(w.extractLsb' 7 3).toNat = _›, bne, Bool.beq_eq_decide_eq]

/-- The groups of class 11 without a row in the table. -/
theorem plain_upper {group : BitVec 4} (hgroup : w.extractLsb' 10 4 = group)
    (plain : group ∉ [7#4, 8#4, 9#4, 12#4]) : reservedByTable w = false := by
  simp only [List.mem_cons, List.not_mem_nil, or_false, not_or] at plain
  obtain ⟨stb, cdp0, cdp1, mul⟩ := plain
  simp [reserved_upper hclass, hgroup, stb, cdp0, cdp1, mul]

theorem decodeUpper_refused : refused (decodeUpper w) = reservedByTable w := by
  unfold decodeUpper
  dsimp only
  split
  case h_8 hg => exact decodeStoreBit_refused hclass (field_of_toNat hg)
  case h_9 cdp | h_10 cdp => simp [reserved_upper hclass, field_of_toNat cdp]
  case h_13 mul => simp [reserved_upper hclass, field_of_toNat mul]
  case h_16 =>
    have syscall : (w.extractLsb' 10 4).toNat = 15 := by
      simp only [imp_false] at *
      omega
    exact (plain_upper hclass (field_of_toNat syscall) (by decide)).symm
  all_goals simp [plain_upper hclass (field_of_toNat ‹(w.extractLsb' 10 4).toNat = _›) (by decide)]

end Upper

theorem decode_refused (w : Word) : refused (decode w) = reservedByTable w := by
  unfold decode
  dsimp only
  split
  · next hclass => exact decodeDataProcessing_refused (field_of_toNat hclass)
  · next hclass => exact decodeMemory_refused (field_of_toNat hclass)
  · next hclass => exact (reserved_branch (field_of_toNat hclass)).symm
  · have class3 : (w.extractLsb' 14 2).toNat = 3 := by
      simp only [imp_false] at *
      omega
    exact decodeUpper_refused (field_of_toNat class3)

/-- Settles O3: class by class, with the rows of the table that its words can meet. -/
theorem reservedWordsRefused : Obligations.ReservedWordsRefused := by
  unfold Obligations.ReservedWordsRefused
  intro w
  rw [← refused_iff, decode_refused]

end Sys2Proof.Proofs
end

section
/-! PROOFS. The relative branches (O29). -/

namespace Sys2Proof.Proofs

open Sys2Proof.Machine Sys2Proof.Laws

/-- The target of a branch as the integer formula of R207. -/
theorem branchTarget_eq_ofInt (pc : Word) (off : BitVec 9) :
    branchTarget pc off = BitVec.ofInt 16 (pc.toNat + 2 * off.toInt) := by
  have hpc : BitVec.ofInt 16 (pc.toNat : Int) = pc := by simp
  rw [BitVec.ofInt_add, BitVec.ofInt_mul, hpc]
  rfl

theorem frame_refl (s : State) (W : List (Bool × Reg)) (bits : List Nat) : Frame s s W bits :=
  ⟨⟨fun _ _ _ => rfl, fun _ _ => rfl⟩, rfl, rfl,
    ⟨rfl, rfl, rfl, rfl, rfl, rfl, rfl, rfl, rfl, rfl, rfl, rfl, rfl, rfl⟩, ⟨fun _ => rfl, fun _ => rfl⟩⟩

/-- The program counter is in no frame, whatever is written to it. -/
theorem frame_setPc {s t : State} {W : List (Bool × Reg)} {bits : List Nat} (h : Frame s t W bits) (target : Word) :
    Frame s (t.setPc target) W bits :=
  ⟨⟨h.registers.regs, h.registers.msr⟩, h.mmu, h.sleeping, { h.devices with }, { h.memory with }⟩

/-- The link is one register of the bank in force (R209, R256). -/
theorem linkIf_frame (s : State) (link : Bool) :
    Frame s (s.linkIf link) (if link then [(s.inSystem, .r7)] else []) [] := by
  cases link with
  | false => exact frame_refl ..
  | true => exact frame_setReg (frame_refl ..) (List.mem_singleton_self _) _

theorem linkIf_reg (s : State) : (s.linkIf true).reg .r7 = s.pc + 2 := by simp [State.linkIf]

/-- A taken branch, linked or not: the pc takes the target and R7 the link (R207, R209). -/
theorem linkIf_setPc_spec (s : State) (link : Bool) (target : Word) :
    ((s.linkIf link).setPc target).pc = target
      ∧ (link = true → ((s.linkIf link).setPc target).reg .r7 = s.pc + 2)
      ∧ Frame s ((s.linkIf link).setPc target) (if link then [(s.inSystem, .r7)] else []) [] :=
  ⟨rfl, fun h => h ▸ linkIf_reg s, frame_setPc (linkIf_frame s link) target⟩

/-- A branch that is not taken (R207). -/
theorem advance_spec (s : State) : s.advance.pc = s.pc + 2 ∧ Frame s s.advance [] [] :=
  ⟨rfl, frame_advance (frame_refl ..)⟩

/-- Settles O29: `linkIf_setPc_spec` where the branch is taken, `advance_spec` where it is not. -/
theorem relativeBranches : Obligations.RelativeBranches := by
  unfold Obligations.RelativeBranches
  rintro s cond off _ rfl
  rw [← branchTarget_eq_ofInt]
  cases taken : s.cond cond with
  | false =>
    obtain ⟨pc, frame⟩ := advance_spec s
    have notTaken : ¬s.cond cond = true := by simp [taken]
    exact ⟨⟨s.advance, if_neg notTaken, pc, frame⟩, s.advance, if_neg notTaken, pc, nofun, frame⟩
  | true =>
    obtain ⟨pcB, -, frameB⟩ := linkIf_setPc_spec s false (branchTarget s.pc off)
    obtain ⟨pcBl, link, frameBl⟩ := linkIf_setPc_spec s true (branchTarget s.pc off)
    exact ⟨⟨_, if_pos taken, pcB, frameB⟩, _, if_pos taken, pcBl, fun _ => link rfl, frameBl⟩

end Sys2Proof.Proofs
end

section
/-! PROOFS. The data-processing instructions: results, flags and frames (O9 to O14). -/

namespace Sys2Proof.Proofs

open Sys2Proof.Machine Sys2Proof.Laws

/-! ## The shared endings, by the kind of computation -/

/-- An instruction that ends with an addition (R120, R122). -/
theorem addition_step (s : State) (rd : Reg) (sf : Bool) (a b : Word) (cin : Bool) :
    AluStep s (s.finishAlu rd sf (addOut a b cin)) rd sf (a + b + (if cin then 1 else 0)) (sumFlags a b cin) := by
  rw [← addOut_result, ← addOut_flags]
  exact finishAlu_step ..

/-- An addition without carry input (R126, R128). -/
theorem addition_step_noCarry (s : State) (rd : Reg) (sf : Bool) (a b : Word) :
    AluStep s (s.finishAlu rd sf (addOut a b false)) rd sf (a + b) (sumFlags a b false) := by
  simpa using addition_step s rd sf a b false

/-- An instruction that ends with a subtraction, under either sense of SUB_CARRY (R120, R123). -/
theorem subtraction_step (s : State) (rd : Reg) (sf : Bool) (a b : Word) (bin : Bool) :
    AluStep s (s.finishAlu rd sf (s.subtract a b bin)) rd sf (a - b - (if bin then 1 else 0))
      (diffFlags s.params.subCarry a b bin) := by
  rw [← subOut_result s.params.subCarry, ← subOut_flags]
  exact finishAlu_step ..

/-- A subtraction without borrow input (R127, R130, R131). -/
theorem subtraction_step_noBorrow (s : State) (rd : Reg) (sf : Bool) (a b : Word) :
    AluStep s (s.finishAlu rd sf (s.subtract a b false)) rd sf (a - b) (diffFlags s.params.subCarry a b false) := by
  simpa using subtraction_step s rd sf a b false

/-- The flags of a subtraction in the sense of the state's SUB_CARRY (R123). -/
theorem subtract_flags (s : State) (a b : Word) (bin : Bool) :
    (s.subtract a b bin).flags = diffFlags s.params.subCarry a b bin :=
  subOut_flags ..

/-- The borrow that a carry stands for (R123). -/
theorem borrowFrom_eq (s : State) (cin : Bool) : s.borrowFrom cin = borrowOf s.params.subCarry cin := borrowIn_eq ..

/-- A logical result writes Z and N and keeps C and O (R124). -/
theorem logicOut_flags (s : State) (r : Word) : (logicOut s.aluFlags r).flags = keptFlags s r := rfl

/-- An instruction that ends with a logical result (R120, R124). -/
theorem logic_step (s : State) (rd : Reg) (sf : Bool) (r : Word) :
    AluStep s (s.finishAlu rd sf (logicOut s.aluFlags r)) rd sf r (keptFlags s r) :=
  logicOut_flags s r ▸ finishAlu_step ..

/-- A test of a logical result (R120, R124). -/
theorem logic_test (s : State) (r : Word) : TestStep s (s.finishTest (logicOut s.aluFlags r).flags) (keptFlags s r) :=
  logicOut_flags s r ▸ finishTest_step ..

/-- The result and the flags of a shift, on the whole word (R125, R144 to R151). -/
theorem shiftOut_eq (type : ShiftType) (a : Word) (c : Bool) :
    shiftOut type a c =
      { result := shiftedWord type a c
        flags :=
          { z := decide (shiftedWord type a c = 0#16)
            c := shiftedOut type a
            o := a.getLsbD 15 != (shiftedWord type a c).getLsbD 15
            n := (shiftedWord type a c).getLsbD 15 } } := by
  rw [← shiftResult_eq, ← shiftCarry_eq]
  rfl

/-! ## The obligations -/

/-- Settles O9: the three instructions are `addition_step` on their operands. -/
theorem additions : Obligations.Additions := by
  unfold Obligations.Additions
  intro s rd ra rb sf imm
  exact ⟨⟨_, rfl, addition_step_noCarry ..⟩, ⟨_, rfl, addition_step_noCarry ..⟩, _, rfl, addition_step ..⟩

/-- Settles O10: the three instructions are `subtraction_step` on their operands, without a borrow. -/
theorem subtractions : Obligations.Subtractions := by
  unfold Obligations.Subtractions
  intro s rd ra rb sf imm
  exact ⟨⟨_, rfl, subtraction_step_noBorrow ..⟩, ⟨_, rfl, subtraction_step_noBorrow ..⟩, _, rfl,
    subtraction_step_noBorrow ..⟩

/-- Settles O11: `subtraction_step` with the borrow that the old carry stands for. -/
theorem subtractionsWithCarry : Obligations.SubtractionsWithCarry := by
  unfold Obligations.SubtractionsWithCarry
  rintro s rd ra rb sf _ rfl
  rw [← borrowFrom_eq]
  exact ⟨⟨_, rfl, subtraction_step ..⟩, _, rfl, subtraction_step ..⟩

/-- Settles O12: all four end with `finishTest`, which writes the flags given to it and no register. -/
theorem compares : Obligations.Compares := by
  unfold Obligations.Compares
  intro s ra rb
  refine ⟨⟨_, rfl, ?_⟩, ?_, ⟨_, rfl, logic_test ..⟩, _, rfl, logic_test ..⟩
  · rw [← subtract_flags]
    exact finishTest_step ..
  · rintro notC orZ _ rfl
    rw [← borrowFrom_eq, ← subtract_flags]
    exact ⟨_, rfl, finishTest_step ..⟩

/-- Settles O13: the five instructions are `logic_step` on their results. -/
theorem logicalResults : Obligations.LogicalResults := by
  unfold Obligations.LogicalResults
  intro s rd ra rb sf
  exact ⟨⟨_, rfl, logic_step ..⟩, ⟨_, rfl, logic_step ..⟩, ⟨_, rfl, logic_step ..⟩, ⟨_, rfl, logic_step ..⟩,
    _, rfl, logic_step ..⟩

/-- Settles O14: the bit slices of the model are the operations on the whole word (`shiftOut_eq`). -/
theorem shifts : Obligations.Shifts := by
  unfold Obligations.Shifts
  rintro s rd ra sf type _ rfl
  have step := finishAlu_step s rd sf (shiftOut type (s.reg ra) (s.flag .c))
  refine ⟨_, rfl, ?_⟩
  rwa [shiftOut_eq] at step ⊢

end Sys2Proof.Proofs
end

section
/-! PROOFS. Arithmetic on double words: ADDS with ADCS, CMP with CPX (O15). -/

namespace Sys2Proof.Proofs

open Sys2Proof.Machine Sys2Proof.Laws

/-! ## What the second instruction finds of the first -/

/-- The mode bit is no arithmetic flag (R17). -/
theorem mode_not_mem_aluBits (s : State) : 15 ∉ s.aluBits := by
  unfold State.aluBits
  cases s.inSystem <;> decide

/-- A register of the current bank that a frame does not name, where the frame keeps the mode (R11). -/
theorem frame_reg {s t : State} {W : List (Bool × Reg)} {bits : List Nat} (h : Frame s t W bits) (mode : 15 ∉ bits)
    {q : Reg} (hq : (s.inSystem, q) ∉ W) : t.reg q = s.reg q := by
  have inSystem : t.inSystem = s.inSystem := h.registers.msr 15 mode
  rw [reg_eq_bankReg, reg_eq_bankReg, inSystem]
  exact h.registers.regs _ _ hq

/-- A data-processing instruction keeps every register but Rd (R120). -/
theorem aluStep_reg {s t : State} {rd q : Reg} {sf : Bool} {r : Word} {f : AluFlags} (h : AluStep s t rd sf r f)
    (hq : rd ≠ q) : t.reg q = s.reg q := by
  refine frame_reg h.frame ?_ (by simp [hq.symm])
  cases sf with
  | false => exact List.not_mem_nil
  | true => exact mode_not_mem_aluBits s

/-- A compare keeps every register (R120). -/
theorem testStep_reg {s t : State} {f : AluFlags} (h : TestStep s t f) (q : Reg) : t.reg q = s.reg q :=
  frame_reg h.frame (mode_not_mem_aluBits s) List.not_mem_nil

/-- The flags of the current set, one by one (R17). -/
theorem flag_of_aluFlags {s : State} {f : AluFlags} (h : s.aluFlags = f) :
    s.flag .z = f.z ∧ s.flag .c = f.c ∧ s.flag .o = f.o ∧ s.flag .n = f.n := by
  subst h
  exact ⟨rfl, rfl, rfl, rfl⟩

/-- What any execution of ADD did (R128). -/
theorem exec_add_step {s t : State} {rd ra rb : Reg} {sf : Bool} (h : exec (.add rd ra sf rb) s = .next t) :
    AluStep s t rd sf (s.reg ra + s.reg rb) (sumFlags (s.reg ra) (s.reg rb) false) := by
  obtain ⟨-, ⟨_, e, step⟩, -⟩ := additions s rd ra rb sf 0
  cases e.symm.trans h
  exact step

/-- What any execution of ADC did (R129). -/
theorem exec_adc_step {s t : State} {rd ra rb : Reg} {sf : Bool} (h : exec (.adc rd ra sf rb) s = .next t) :
    AluStep s t rd sf (s.reg ra + s.reg rb + (if s.flag .c then 1 else 0))
      (sumFlags (s.reg ra) (s.reg rb) (s.flag .c)) := by
  obtain ⟨-, -, _, e, step⟩ := additions s rd ra rb sf 0
  cases e.symm.trans h
  exact step

/-- What any execution of CMP did (R134). -/
theorem exec_cmp_step {s t : State} {ra rb : Reg} (h : exec (.cmp ra rb) s = .next t) :
    TestStep s t (diffFlags s.params.subCarry (s.reg ra) (s.reg rb) false) := by
  obtain ⟨⟨_, e, step⟩, -⟩ := compares s ra rb
  cases e.symm.trans h
  exact step

/-- CPX with neither option: the carry as it is, Z joined by AND (R135). -/
theorem exec_cpx_step {s t : State} {ra rb : Reg} {f : AluFlags}
    (hf : f = diffFlags s.params.subCarry (s.reg ra) (s.reg rb) (borrowOf s.params.subCarry (s.flag .c)))
    (h : exec (.cpx false false ra rb) s = .next t) : TestStep s t { f with z := s.flag .z && f.z } := by
  obtain ⟨-, cpx, -⟩ := compares s ra rb
  obtain ⟨_, e, step⟩ := cpx false false f hf
  cases e.symm.trans h
  exact step

/-! ## Double words as numbers -/

theorem doubleWord_toNat (h l : Word) : (h ++ l).toNat = h.toNat * 2 ^ 16 + l.toNat := by
  rw [BitVec.toNat_append, ← Nat.shiftLeft_add_eq_or_of_lt l.isLt, Nat.shiftLeft_eq]

theorem doubleWord_toInt (h l : Word) : (h ++ l).toInt = h.toInt * 2 ^ 16 + l.toNat := by
  rw [BitVec.toInt_append, if_neg (by decide), Int.mul_comm]

/-! ## Addition -/

/-- The carry of the low words completes the sum of the high words (R128, R129). -/
theorem doubleWord_add (aH aL bH bL : Word) :
    (aH + bH + (if (sumFlags aL bL false).c then 1 else 0)) ++ (aL + bL) = (aH ++ aL) + (bH ++ bL) := by
  have hL := aL.isLt
  have hL' := bL.isLt
  apply BitVec.eq_of_toNat_eq
  by_cases carry : 65536 ≤ aL.toNat + bL.toNat <;>
    simp [sumFlags, carry, doubleWord_toNat, BitVec.toNat_add] <;> omega

/-- The carry of the high words is the carry of the whole sum (R122). -/
theorem doubleWord_add_carry (aH aL bH bL : Word) :
    (sumFlags aH bH (sumFlags aL bL false).c).c = decide (2 ^ 32 ≤ (aH ++ aL).toNat + (bH ++ bL).toNat) := by
  have hL := aL.isLt
  have hL' := bL.isLt
  rw [doubleWord_toNat, doubleWord_toNat]
  by_cases carry : 65536 ≤ aL.toNat + bL.toNat <;> simp [sumFlags, carry] <;> omega

/-! ## Comparison -/

/-- The carry of a difference is its borrow in the sense of SUB_CARRY (R123). -/
theorem diffFlags_c (k : SubCarry) (a b : Word) (bin : Bool) :
    (diffFlags k a b bin).c
      = if k = .borrow then decide (a.toNat < b.toNat + bin.toNat) else !decide (a.toNat < b.toNat + bin.toNat) := by
  unfold diffFlags
  cases k <;> simp [← decide_not] <;> omega

/-- The borrow that a comparison of the low words hands on is their unsigned order. -/
theorem borrowOf_compare_c (k : SubCarry) (a b : Word) :
    borrowOf k (diffFlags k a b false).c = decide (a.toNat < b.toNat) := by
  cases k <;> simp [borrowOf, diffFlags_c]

/-- N against O is the sign of the exact signed difference (R121, R123). -/
theorem diffFlags_n_ne_o (k : SubCarry) (a b : Word) (bin : Bool) :
    ((diffFlags k a b bin).n != (diffFlags k a b bin).o) = decide (a.toInt - b.toInt - (bin.toNat : Int) < 0) := by
  have ha := a.isLt
  have hb := b.isLt
  have hbin := bin.toNat_le
  rw [Bool.eq_iff_iff]
  simp only [diffFlags, bne_iff_ne, ne_eq, decide_eq_decide, decide_eq_true_eq, BitVec.toInt_eq_toNat_cond]
  split <;> split <;> omega

/-- The joined Z flags are the equality of the double words (R134, R135). -/
theorem doubleWord_compare_z (k : SubCarry) (aH aL bH bL : Word) :
    ((diffFlags k aL bL false).z && (diffFlags k aH bH (decide (aL.toNat < bL.toNat))).z)
      = decide (aH ++ aL = bH ++ bL) := by
  have haH := aH.isLt
  have haL := aL.isLt
  have hbH := bH.isLt
  have hbL := bL.isLt
  rw [Bool.eq_iff_iff]
  by_cases borrow : aL.toNat < bL.toNat <;>
    simp [diffFlags, borrow, ← BitVec.toNat_inj, doubleWord_toNat] <;> omega

/-- The carry of the high words is the unsigned order of the double words (R123). -/
theorem doubleWord_compare_c (k : SubCarry) (aH aL bH bL : Word) :
    (diffFlags k aH bH (decide (aL.toNat < bL.toNat))).c
      = if k = .borrow then (aH ++ aL).ult (bH ++ bL) else !(aH ++ aL).ult (bH ++ bL) := by
  have haL := aL.isLt
  have hbL := bL.isLt
  have order : decide (aH.toNat < bH.toNat + (decide (aL.toNat < bL.toNat)).toNat) = (aH ++ aL).ult (bH ++ bL) := by
    rw [BitVec.ult_eq_decide, doubleWord_toNat, doubleWord_toNat, decide_eq_decide]
    by_cases borrow : aL.toNat < bL.toNat <;> simp [borrow] <;> omega
  rw [diffFlags_c, order]

/-- The sign of the exact difference of the high words is the signed order of the double words. -/
theorem doubleWord_compare_signed (aH aL bH bL : Word) :
    decide (aH.toInt - bH.toInt - ((decide (aL.toNat < bL.toNat)).toNat : Int) < 0) = (aH ++ aL).slt (bH ++ bL) := by
  have haL := aL.isLt
  have hbL := bL.isLt
  rw [BitVec.slt_eq_decide, doubleWord_toInt, doubleWord_toInt, decide_eq_decide]
  by_cases borrow : aL.toNat < bL.toNat <;> simp [borrow] <;> omega

/-! ## The obligation -/

/-- ADDS and then ADCS, where the first result is no operand of the second (R128, R129). -/
theorem adds_adc_eq {s t u : State} {rdL raL rbL rdH raH rbH : Reg} {sf : Bool} (hA : rdL ≠ raH) (hB : rdL ≠ rbH)
    (hD : rdL ≠ rdH) (low : exec (.add rdL raL true rbL) s = .next t) (high : exec (.adc rdH raH sf rbH) t = .next u) :
    u.reg rdH ++ u.reg rdL = (s.reg raH ++ s.reg raL) + (s.reg rbH ++ s.reg rbL)
      ∧ (sf = true →
          u.flag .c = decide (2 ^ 32 ≤ (s.reg raH ++ s.reg raL).toNat + (s.reg rbH ++ s.reg rbL).toNat)) := by
  have add := exec_add_step low
  have adc := exec_adc_step high
  obtain ⟨-, carry, -, -⟩ := flag_of_aluFlags (add.flags rfl)
  rw [aluStep_reg add hA, aluStep_reg add hB, carry] at adc
  constructor
  · rw [adc.result, aluStep_reg adc hD.symm, add.result]
    exact doubleWord_add ..
  · intro hs
    obtain ⟨-, carryOut, -, -⟩ := flag_of_aluFlags (adc.flags hs)
    rw [carryOut]
    exact doubleWord_add_carry ..

/-- The flags of CMP and then CPX are those of the high words, less the borrow of the low ones, with the Z flags joined by
AND (R134, R135). -/
theorem cmp_cpx_aluFlags {s t u : State} {aL bL aH bH : Reg} {f : AluFlags} (low : exec (.cmp aL bL) s = .next t)
    (high : exec (.cpx false false aH bH) t = .next u)
    (hf : f = diffFlags s.params.subCarry (s.reg aH) (s.reg bH) (decide ((s.reg aL).toNat < (s.reg bL).toNat))) :
    u.aluFlags = { f with z := (diffFlags s.params.subCarry (s.reg aL) (s.reg bL) false).z && f.z } := by
  have cmp := exec_cmp_step low
  obtain ⟨hz, hc, -, -⟩ := flag_of_aluFlags cmp.flags
  rw [← hz]
  refine (exec_cpx_step ?_ high).flags
  rw [hf, cmp.frame.devices.params, testStep_reg cmp, testStep_reg cmp, hc, borrowOf_compare_c]

/-- Settles O15: the two instructions of each pair compute on the halves what `doubleWord_add` and the
`doubleWord_compare` lemmas say of the whole. -/
theorem doubleWordArithmetic : Obligations.DoubleWordArithmetic := by
  unfold Obligations.DoubleWordArithmetic
  refine ⟨fun s t u rdL raL rbL rdH raH rbH sf hA hB hD => adds_adc_eq hA hB hD, ?_⟩
  intro s t u aL bL aH bH low high
  obtain ⟨hz, hc, ho, hn⟩ := flag_of_aluFlags (cmp_cpx_aluFlags low high rfl)
  rw [hz, hc, hn, ho, doubleWord_compare_z, doubleWord_compare_c, diffFlags_n_ne_o, doubleWord_compare_signed]
  exact ⟨rfl, rfl, rfl⟩

end Sys2Proof.Proofs
end

section
/-! PROOFS. The copies between the register banks in system mode (O17). -/

namespace Sys2Proof.Proofs

open Sys2Proof.Machine Sys2Proof.Laws

/-! ## The flags and the frame of system mode -/

/-- The arithmetic flags of system mode are bits 5 to 8 of the MSR (R17). -/
theorem aluBits_of_inSystem {s : State} (hsys : s.inSystem = true) : s.aluBits = [5, 6, 7, 8] := by
  simp [State.aluBits, flagBase, hsys]

/-- The optional write of the flags adds their bits to a frame that leaves the MSR alone (R120). -/
theorem frame_setAluFlagsIf {s t : State} {W : List (Bool × Reg)} (h : Frame s t W []) (sf : Bool) (f : AluFlags) :
    Frame s (t.setAluFlagsIf sf f) W (if sf then s.aluBits else []) := by
  cases sf with
  | false => exact h
  | true =>
    have bits : t.aluBits = s.aluBits := by unfold State.aluBits; rw [sameRegisters_inSystem h.registers]
    exact
      { registers :=
          { regs := h.registers.regs
            msr := fun i hi =>
              (setAluFlags_bits t f i (bits ▸ hi)).trans (h.registers.msr i List.not_mem_nil) }
        mmu := h.mmu
        sleeping := h.sleeping
        devices := { h.devices with }
        memory := { h.memory with } }

/-- A write of one register of the user bank, whatever the mode. -/
theorem frame_setUsr (s : State) (r : Reg) (w : Word) :
    Frame s { s with usr := s.usr.set r w } [(false, r)] [] where
  registers :=
    { regs := fun b q h => by
        cases b with
        | true => rfl
        | false =>
          have other : q ≠ r := by simpa using h
          exact (bank_get_set s.usr r q w).trans (if_neg other)
      msr := fun _ _ => rfl }
  mmu := rfl
  sleeping := rfl
  devices := ⟨rfl, rfl, rfl, rfl, rfl, rfl, rfl, rfl, rfl, rfl, rfl, rfl, rfl, rfl⟩
  memory := ⟨fun _ => rfl, fun _ => rfl⟩

/-! ## LDUB and STUB -/

/-- In system mode LDUB ends as a logical instruction does whose result is the user register (R161, R163). -/
theorem execLdub_inSystem {s : State} (hsys : s.inSystem = true) (rd ra : Reg) (sf : Bool) :
    execLdub rd ra sf s = .next (s.finishAlu rd sf (logicOut s.aluFlags (s.usr.get ra))) := by
  simp [execLdub, State.finishAlu, State.setReg, logicOut, hsys]

/-- In system mode STUB writes the user register, then the flags, and advances (R162, R163). -/
theorem execStub_inSystem {s : State} (hsys : s.inSystem = true) (rd ra : Reg) (sf : Bool) :
    execStub rd ra sf s =
      .next ({ s with usr := s.usr.set rd (s.sys.get ra) }.setAluFlagsIf sf (keptFlags s (s.sys.get ra))).advance := by
  simp [execStub, logicOut_flags, hsys]

/-- LDUB copies a user register to a system register (R161, R163). -/
theorem ldub_copies {s : State} (hsys : s.inSystem = true) (rd ra : Reg) (sf : Bool) :
    ∃ t, exec (.ldub rd ra sf) s = .next t ∧ t.sys.get rd = s.usr.get ra
      ∧ (sf = true → t.aluFlags = keptFlags s (s.usr.get ra)) ∧ t.pc = s.pc + 2
      ∧ Frame s t [(true, rd)] (if sf then [5, 6, 7, 8] else []) := by
  have step := logic_step s rd sf (s.usr.get ra)
  have copied : (s.finishAlu rd sf (logicOut s.aluFlags (s.usr.get ra))).sys.get rd = s.usr.get ra := by
    simp [State.finishAlu, logicOut, hsys]
  have frame := step.frame
  rw [aluBits_of_inSystem hsys, hsys] at frame
  exact ⟨_, execLdub_inSystem hsys rd ra sf, copied, step.flags, step.pc, frame⟩

/-- STUB copies a system register to a user register (R162, R163). -/
theorem stub_copies {s : State} (hsys : s.inSystem = true) (rd ra : Reg) (sf : Bool) :
    ∃ t, exec (.stub rd ra sf) s = .next t ∧ t.usr.get rd = s.sys.get ra
      ∧ (sf = true → t.aluFlags = keptFlags s (s.sys.get ra)) ∧ t.pc = s.pc + 2
      ∧ Frame s t [(false, rd)] (if sf then [5, 6, 7, 8] else []) := by
  refine ⟨_, execStub_inSystem hsys rd ra sf, by simp, ?_, by simp, ?_⟩
  · rintro rfl
    exact setAluFlags_aluFlags ..
  · rw [← aluBits_of_inSystem hsys]
    exact frame_advance (frame_setAluFlagsIf (frame_setUsr ..) ..)

/-- Settles O17: `ldub_copies` and `stub_copies`. -/
theorem userBankTransfers : Obligations.UserBankTransfers := by
  unfold Obligations.UserBankTransfers
  intro s rd ra sf hsys
  exact ⟨ldub_copies hsys rd ra sf, stub_copies hsys rd ra sf⟩

end Sys2Proof.Proofs
end

section
/-! PROOFS. LDPC (O18). -/

namespace Sys2Proof.Proofs

open Sys2Proof.Machine Sys2Proof.Laws

/-- LDPC ends as a write of the instruction's own address to Rd and an advance, with no privilege check (R166). -/
theorem exec_ldpc (s : State) (rd : Reg) : exec (.ldpc rd) s = .next (s.setReg rd s.pc).advance := rfl

/-- Settles O18: the write and advance of `exec_ldpc` is the `move_step` of the pc. -/
theorem loadPc : Obligations.LoadPc := by
  unfold Obligations.LoadPc
  intro s rd
  exact ⟨(s.setReg rd s.pc).advance, exec_ldpc s rd, move_step s rd s.pc⟩

end Sys2Proof.Proofs
end

section
/-! PROOFS. The MSR access instructions (O20 to O22). -/

namespace Sys2Proof.Proofs

open Sys2Proof.Machine Sys2Proof.Laws

/-! ## The parts of the MSR, bit by bit -/

/-- The bits that an MSR part names (R176). -/
def partNames : MsrPart → Nat → Bool
  | .all, _ => true
  | .aluFlags, i => decide (i < 10)
  | .sysFlags, i => decide (5 ≤ i ∧ i < 10)
  | .usrFlags, i => decide (i < 5)

/-- The mask of a part holds the bits that the part names. -/
theorem partMask_eq_partNames (part : MsrPart) {i : Nat} (hi : i < 16) :
    (partMask part).getLsbD i = partNames part i := by
  rw [partMask_getLsbD]
  cases part with
  | all => exact decide_eq_true hi
  | aluFlags | sysFlags | usrFlags => rfl

/-- A word under the mask of a part: the other bits read 0 (R177). -/
theorem getLsbD_and_partMask (w : Word) (part : MsrPart) (i : Nat) :
    (w &&& partMask part).getLsbD i = (w.getLsbD i && partNames part i) := by
  rw [BitVec.getLsbD_and]
  by_cases hi : i < 16
  · rw [partMask_eq_partNames part hi]
  · rw [BitVec.getLsbD_of_ge w i (Nat.le_of_not_lt hi), Bool.false_and, Bool.false_and]

/-- A merge under the mask of a part: the other bits are kept (R178). -/
theorem getLsbD_merge_partMask (old new : Word) (part : MsrPart) (i : Nat) :
    (mergeBits old new (partMask part)).getLsbD i = if partNames part i then new.getLsbD i else old.getLsbD i := by
  rw [getLsbD_mergeBits]
  by_cases hi : i < 16
  · rw [partMask_eq_partNames part hi]
  · simp only [BitVec.getLsbD_of_ge _ i (Nat.le_of_not_lt hi), ite_self]

/-- Only the whole MSR names the mode bit (R17, R176). -/
theorem partNames_mode {part : MsrPart} : partNames part bitM = true ↔ part = .all := by
  cases part <;> decide

/-! ## What the three instructions do where the mode allows them -/

/-- A write of MSR bits and an advance leave everything else alone. -/
theorem frame_withMsr (s : State) {m : Word} {bits : List Nat}
    (kept : ∀ i, i ∉ bits → m.getLsbD i = s.msr.getLsbD i) : Frame s ({ s with msr := m } : State).advance [] bits :=
  frame_advance
    { registers := ⟨fun _ _ _ => rfl, kept⟩
      mmu := rfl
      sleeping := rfl
      devices := ⟨rfl, rfl, rfl, rfl, rfl, rfl, rfl, rfl, rfl, rfl, rfl, rfl, rfl, rfl⟩
      memory := ⟨fun _ => rfl, fun _ => rfl⟩ }

section
variable {s : State} {part : MsrPart}

/-- System mode may transfer every part, user mode its own flags (R176). -/
theorem msrAllowed_iff : s.msrAllowed part = true ↔ s.inSystem = true ∨ part = .usrFlags := by
  simp [State.msrAllowed]

theorem exec_ldsr_allowed (allowed : s.inSystem = true ∨ part = .usrFlags) (rd : Reg) :
    exec (.ldsr rd part) s = .next (s.setReg rd (s.msr &&& partMask part)).advance :=
  if_pos (msrAllowed_iff.2 allowed)

/-- An allowed STSR asks only whether it leaves system mode across pages. -/
theorem exec_stsr_allowed (allowed : s.inSystem = true ∨ part = .usrFlags) (rb : Reg) :
    exec (.stsr part rb) s =
      if s.leavesAcrossPages (mergeBits s.msr (s.reg rb) (partMask part)) then .refused .stsrAcrossPages
      else .next ({ s with msr := mergeBits s.msr (s.reg rb) (partMask part) } : State).advance :=
  if_pos (msrAllowed_iff.2 allowed)

/-- An allowed STSR leaves system mode only as a write of the whole MSR that clears M: any other part keeps the mode bit,
and the whole MSR is allowed in system mode alone (R178, D25). -/
theorem stsr_leavesAcrossPages_iff (allowed : s.inSystem = true ∨ part = .usrFlags) (rb : Reg) :
    s.leavesAcrossPages (mergeBits s.msr (s.reg rb) (partMask part)) = true
      ↔ part = .all ∧ (s.reg rb).getLsbD 15 = false ∧ s.mmu.usrI ≠ s.mmu.sysI := by
  unfold State.leavesAcrossPages
  rw [getLsbD_merge_partMask]
  by_cases whole : part = .all
  · have hsys : s.inSystem = true := allowed.resolve_right (by simp [whole])
    rw [if_pos (partNames_mode.2 whole), hsys]
    simp [whole, bitM]
  · have mode : s.msr.getLsbD bitM = s.inSystem := rfl
    rw [if_neg (mt partNames_mode.1 whole), mode]
    simp [whole]

end

theorem exec_staf_allowed {s : State} {set : FlagSet} (allowed : s.inSystem = true ∨ set = .usr) (t n o c z : Bool) :
    exec (.staf set t n o c z) s =
      .next ({ s with msr := msrWithFlagSet s.msr (flagBase (decide (set = .sys))) t n o c z } : State).advance :=
  if_pos (by simpa using allowed)

/-- Where the named flag set begins (R17, R179). -/
theorem flagBase_of_set (set : FlagSet) : flagBase (decide (set = .sys)) = if set = .usr then 0 else 5 := by
  cases set <;> rfl

/-! ## The obligations -/

/-- Settles O20: the move of the masked MSR, read bit by bit. -/
theorem loadMsr : Obligations.LoadMsr := by
  unfold Obligations.LoadMsr
  intro s rd part allowed
  refine ⟨_, s.msr &&& partMask part, exec_ldsr_allowed allowed rd, move_step s rd _, fun i => ?_⟩
  rw [getLsbD_and_partMask]
  cases part <;> rfl

/-- Settles O21: the merge, read bit by bit, where `stsr_leavesAcrossPages_iff` lets it through. -/
theorem storeMsr : Obligations.StoreMsr := by
  unfold Obligations.StoreMsr
  intro s part rb allowed
  rw [exec_stsr_allowed allowed rb]
  have leaves := stsr_leavesAcrossPages_iff allowed rb
  refine ⟨fun stays => ?runs, fun whole clears differ => if_pos (leaves.2 ⟨whole, clears, differ⟩)⟩
  case runs =>
    refine ⟨_, if_neg (mt leaves.1 stays), fun i => ?bits, rfl, frame_withMsr s fun i outside => ?kept⟩
    case bits =>
      refine (getLsbD_merge_partMask s.msr (s.reg rb) part i).trans ?_
      cases part <;> rfl
    case kept =>
      have beyond : 16 ≤ i := by simpa using outside
      rw [BitVec.getLsbD_of_ge _ i beyond, BitVec.getLsbD_of_ge _ i beyond]

/-- Settles O22: the five writes of `msrWithFlagSet`, read bit by bit. -/
theorem storeFlagsImmediate : Obligations.StoreFlagsImmediate := by
  unfold Obligations.StoreFlagsImmediate
  intro s set z c o n t base allowed hbase
  rw [exec_staf_allowed allowed, flagBase_of_set, ← hbase]
  have within : base + 4 < 16 := by rw [hbase]; split <;> decide
  have bit := msrWithFlagSet_getLsbD s.msr base t n o c z within
  refine ⟨_, rfl, ?bitZ, ?bitC, ?bitO, ?bitN, ?bitT, rfl, frame_withMsr s fun i outside => ?kept⟩
  case kept =>
    simp only [List.mem_cons, List.not_mem_nil, or_false, not_or] at outside
    obtain ⟨hz, hc, ho, hn, ht⟩ := outside
    rw [bit, if_neg hz, if_neg hc, if_neg ho, if_neg hn, if_neg ht]
  all_goals exact (bit _).trans (by simp)

end Sys2Proof.Proofs
end

section
/-! PROOFS. The condition codes: on the flags, and after a compare (O31, O16). -/

namespace Sys2Proof.Proofs

open Sys2Proof.Machine Sys2Proof.Laws

/-! ## The conditions on the flags -/

/-- A flag of the current mode is a bit of the set that the mode bit selects (R17). -/
theorem flag_eq_msrBit (s : State) (k : Flag) :
    s.flag k = s.msr.getLsbD (if s.msr.getLsbD 15 then 5 + k.offset else k.offset) := by
  unfold State.flag State.inSystem flagBase
  split
  · rfl
  · rw [Nat.zero_add]

theorem cond_ge (s : State) : s.cond .ge = decide (s.flag .n = s.flag .o) := Bool.beq_eq_decide_eq ..

theorem cond_lt (s : State) : s.cond .lt = decide (s.flag .n ≠ s.flag .o) :=
  (congrArg (! ·) (cond_ge s)).trans (decide_not ..).symm

theorem cond_gt (s : State) : s.cond .gt = (!s.flag .z && decide (s.flag .n = s.flag .o)) :=
  congrArg (!s.flag .z && ·) (cond_ge s)

theorem cond_le (s : State) : s.cond .le = (s.flag .z || decide (s.flag .n ≠ s.flag .o)) :=
  congrArg (s.flag .z || ·) (cond_lt s)

/-- Settles O31: the flags are the named bits (`flag_eq_msrBit`); where the table compares N and O, `cond_ge` to `cond_le`
read the comparison, and every other row is the definition's own. -/
theorem conditionTable : Obligations.ConditionTable := by
  unfold Obligations.ConditionTable
  intro s z c o n t hz hc ho hn ht
  have flagZ : s.flag .z = z := (flag_eq_msrBit s .z).trans hz.symm
  have flagC : s.flag .c = c := (flag_eq_msrBit s .c).trans hc.symm
  have flagO : s.flag .o = o := (flag_eq_msrBit s .o).trans ho.symm
  have flagN : s.flag .n = n := (flag_eq_msrBit s .n).trans hn.symm
  have flagT : s.flag .t = t := (flag_eq_msrBit s .t).trans ht.symm
  subst flagZ flagC flagO flagN flagT
  exact ⟨rfl, rfl, rfl, rfl, rfl, rfl, rfl, rfl, rfl, rfl, cond_ge s, cond_lt s, cond_gt s, cond_le s, rfl, rfl⟩

/-! ## The flags of a compare -/

/-- Z of a difference without borrow is the equality of its operands (R121). -/
theorem diffFlags_z_noBorrow (k : SubCarry) (a b : Word) : (diffFlags k a b false).z = decide (a = b) := by
  have ha := a.isLt
  have hb := b.isLt
  simp only [diffFlags, decide_eq_decide, ← BitVec.toNat_inj, Bool.toNat_false]
  omega

/-- C of a difference without borrow is the unsigned order of its operands, in the sense of SUB_CARRY (R123). -/
theorem diffFlags_c_noBorrow (k : SubCarry) (a b : Word) :
    (diffFlags k a b false).c = if k = .borrow then a.ult b else b.ule a := by
  rw [diffFlags_c, BitVec.ule_eq_not_ult]
  rfl

/-- O of a difference without borrow: the exact signed difference is out of range (R123). -/
theorem diffFlags_o_noBorrow (k : SubCarry) (a b : Word) :
    (diffFlags k a b false).o = decide (a.toInt - b.toInt < -32768 ∨ 32767 < a.toInt - b.toInt) := by
  simp [diffFlags]

/-- N of a difference without borrow is the top bit of the difference modulo 2^16 (R121). -/
theorem diffFlags_n_noBorrow (k : SubCarry) (a b : Word) : (diffFlags k a b false).n = (a - b).getLsbD 15 := by
  have result : (subOut k a b false).result = a - b := by simp [subOut_result]
  rw [← subOut_flags, ← result]
  rfl

/-- N against O of a difference without borrow is the signed order of its operands (R210). -/
theorem diffFlags_signed_noBorrow (k : SubCarry) (a b : Word) :
    ((diffFlags k a b false).n != (diffFlags k a b false).o) = decide (a.toInt < b.toInt) := by
  rw [diffFlags_n_ne_o, decide_eq_decide, Bool.toNat_false]
  omega

/-! ## The ordered conditions after a compare -/

theorem cond_ls_eq_not_hi (s : State) : s.cond .ls = !s.cond .hi := by
  change (!s.flag .c || s.flag .z) = !(s.flag .c && !s.flag .z)
  rw [Bool.not_and, Bool.not_not]

theorem cond_ge_eq_not_lt (s : State) : s.cond .ge = !s.cond .lt := by
  rw [cond_ge, cond_lt, ← decide_not, decide_eq_decide, not_not]

theorem cond_gt_eq_not_le (s : State) : s.cond .gt = !s.cond .le := by
  rw [cond_gt, cond_le, Bool.not_or, ← decide_not]
  simp only [not_not]

section Ordered
variable {t : State} {a b : Word}

/-- The signed conditions, where N against O is the signed order (R210). -/
theorem signed_conditions (hz : t.flag .z = decide (a = b)) (lt : t.cond .lt = decide (a.toInt < b.toInt)) :
    t.cond .ge = decide (b.toInt ≤ a.toInt) ∧ t.cond .lt = decide (a.toInt < b.toInt)
      ∧ t.cond .gt = decide (b.toInt < a.toInt) ∧ t.cond .le = decide (a.toInt ≤ b.toInt) := by
  have le : t.cond .le = decide (a.toInt ≤ b.toInt) := by
    change (t.flag .z || t.cond .lt) = _
    rw [hz, lt, ← Bool.decide_or, decide_eq_decide, ← BitVec.toInt_inj, le_iff_eq_or_lt]
  refine ⟨?ge, lt, ?gt, le⟩
  case ge => rw [cond_ge_eq_not_lt, lt, ← decide_not, decide_eq_decide, not_lt]
  case gt => rw [cond_gt_eq_not_le, le, ← decide_not, decide_eq_decide, not_le]

/-- The unsigned conditions, where the carry is the borrow: a borrow excludes equality (R210). -/
theorem unsigned_conditions_borrow (hz : t.flag .z = decide (a = b)) (cs : t.flag .c = a.ult b) :
    t.cond .cs = a.ult b ∧ t.cond .cc = b.ule a ∧ t.cond .hi = a.ult b ∧ t.cond .ls = b.ule a := by
  have hi : t.cond .hi = a.ult b := by
    change (t.flag .c && !t.flag .z) = _
    rw [cs, hz, BitVec.ult_eq_decide, ← decide_not, ← Bool.decide_and, decide_eq_decide, ← BitVec.toNat_inj]
    exact and_iff_left_of_imp Nat.ne_of_lt
  rw [cond_ls_eq_not_hi, BitVec.ule_eq_not_ult, hi]
  exact ⟨cs, congrArg (! ·) cs, rfl, rfl⟩

/-- The unsigned conditions, where the carry is the inverted borrow (R210). -/
theorem unsigned_conditions_notBorrow (hz : t.flag .z = decide (a = b)) (cs : t.flag .c = b.ule a) :
    t.cond .cs = b.ule a ∧ t.cond .cc = a.ult b ∧ t.cond .hi = b.ult a ∧ t.cond .ls = a.ule b := by
  have cc : t.cond .cc = a.ult b := by
    change (!t.flag .c) = _
    rw [cs, BitVec.ule_eq_not_ult, Bool.not_not]
  have hi : t.cond .hi = b.ult a := by
    change (t.flag .c && !t.flag .z) = _
    rw [cs, hz, BitVec.ule_eq_decide, BitVec.ult_eq_decide, ← decide_not, ← Bool.decide_and, decide_eq_decide,
      ← BitVec.toNat_inj, eq_comm, ← Nat.lt_iff_le_and_ne]
  rw [cond_ls_eq_not_hi, BitVec.ule_eq_not_ult a b, hi]
  exact ⟨cs, cc, rfl, rfl⟩

end Ordered

/-! ## The obligation -/

/-- Settles O16: the flags that `exec_cmp_step` gives, and the conditions that follow from them. -/
theorem conditionsAfterCompare : Obligations.ConditionsAfterCompare := by
  unfold Obligations.ConditionsAfterCompare
  rintro s t ra rb a b rfl rfl run
  obtain ⟨hz, hc, ho, hn⟩ := flag_of_aluFlags (exec_cmp_step run).flags
  have order := diffFlags_signed_noBorrow s.params.subCarry (s.reg ra) (s.reg rb)
  rw [← hn, ← ho] at order
  rw [diffFlags_z_noBorrow] at hz
  rw [diffFlags_c_noBorrow] at hc
  rw [diffFlags_o_noBorrow] at ho
  rw [diffFlags_n_noBorrow] at hn
  obtain ⟨ge, lt, gt, le⟩ := signed_conditions hz order
  refine ⟨hz, ?ne, hn, congrArg (! ·) hn, ho, ?oc, ge, lt, gt, le, fun borrow => ?borrow, fun notBorrow => ?notBorrow⟩
  case ne => exact (congrArg (! ·) hz).trans (decide_not ..).symm
  case oc =>
    change (!t.flag .o) = _
    rw [ho, ← decide_not, decide_eq_decide, not_or, not_lt, not_lt]
  case borrow => exact unsigned_conditions_borrow hz (hc.trans (if_pos borrow))
  case notBorrow => exact unsigned_conditions_notBorrow hz (hc.trans (if_neg (by simp [notBorrow])))

end Sys2Proof.Proofs
end

section
/-! PROOFS. The load immediate instructions (O33). -/

namespace Sys2Proof.Proofs

open Sys2Proof.Machine Sys2Proof.Laws

/-! ## The loaded words as numbers -/

/-- The sign extension of LDIL keeps the signed value of the immediate (R216). -/
theorem immLow_toInt (imm : BitVec 8) : (immLow imm).toInt = imm.toInt :=
  BitVec.toInt_signExtend_of_le (by decide)

/-- The immediate of LDIH counts as the high byte, the low byte of the old value stays (R217). -/
theorem withHighByte_toNat (imm : BitVec 8) (old : Word) :
    (withHighByte imm old).toNat = imm.toNat * 256 + old.toNat % 256 := by
  have low : (old.extractLsb' 0 8).toNat = old.toNat % 256 := by simp
  calc (withHighByte imm old).toNat
      = imm.toNat <<< 8 ||| (old.extractLsb' 0 8).toNat := BitVec.toNat_append ..
    _ = imm.toNat <<< 8 + (old.extractLsb' 0 8).toNat := (Nat.shiftLeft_add_eq_or_of_lt (BitVec.isLt _) _).symm
    _ = imm.toNat * 256 + old.toNat % 256 := by rw [low, Nat.shiftLeft_eq]

/-! ## The instructions -/

/-- LDIL ends as a write of the extended immediate to Rd and an advance (R216). -/
theorem exec_ldil (s : State) (rd : Reg) (imm : BitVec 8) :
    exec (.ldil rd imm) s = .next (s.setReg rd (immLow imm)).advance := rfl

/-- LDIH ends as a write of Rd with its high byte replaced and an advance (R217). -/
theorem exec_ldih (s : State) (rd : Reg) (imm : BitVec 8) :
    exec (.ldih rd imm) s = .next (s.setReg rd (withHighByte imm (s.reg rd))).advance := rfl

/-- Settles O33: the writes of `exec_ldil` and `exec_ldih` are the `move_step` of words with the values stated. -/
theorem loadImmediates : Obligations.LoadImmediates := by
  unfold Obligations.LoadImmediates
  intro s rd imm
  constructor
  · exact ⟨_, immLow imm, exec_ldil s rd imm, move_step s rd _, immLow_toInt imm⟩
  · exact ⟨_, withHighByte imm (s.reg rd), exec_ldih s rd imm, move_step s rd _, withHighByte_toNat imm (s.reg rd)⟩

end Sys2Proof.Proofs
end

section
/-! PROOFS. The bit manipulation instructions (O34, O35). -/

namespace Sys2Proof.Proofs

open Sys2Proof.Machine Sys2Proof.Laws

/-! ## Bits of a word -/

/-- A bit of a word in which the named bit was replaced (R221 to R223). -/
theorem withBit_getLsbD (w : Word) (bit : BitVec 4) (v : Bool) {i : Nat} (hi : i < 16) :
    (withBit w bit v).getLsbD i = if i = bit.toNat then v else w.getLsbD i := by
  rw [withBit, getLsbD_setBit, decide_eq_true hi, Bool.true_and]

/-- The bit index in a register counts modulo 16 (R228). -/
theorem indexOf_toNat (w : Word) : (indexOf w).toNat = w.toNat % 16 :=
  BitVec.extractLsb'_toNat ..

/-! ## Parity by counting -/

/-- An exclusive OR along a list turns its start value over once for each member at which the bit is 1. -/
theorem foldl_xor_eq_odd_count (f : Nat → Bool) (is : List Nat) (start : Bool) :
    is.foldl (fun p i => p ^^ f i) start = (start ^^ decide ((is.filter f).length % 2 = 1)) := by
  induction is generalizing start with
  | nil => exact (Bool.xor_false start).symm
  | cons i is ih =>
    rw [List.foldl_cons, ih]
    cases hi : f i with
    | false => rw [List.filter_cons_of_neg (by simp [hi]), Bool.xor_false]
    | true =>
      rw [List.filter_cons_of_pos hi, List.length_cons, Bool.xor_assoc, Bool.true_xor, ← decide_not]
      congr 2
      rw [eq_iff_iff]
      omega

/-- The parity is 1 when the number of 1 bits is odd (R226). -/
theorem parity_eq_odd_ones (w : Word) :
    parity w = decide (((List.range 16).filter fun i => w.getLsbD i).length % 2 = 1) := by
  rw [parity, foldl_xor_eq_odd_count, Bool.false_xor]

/-- The inverted parity is 1 when the number of 1 bits is even (R227). -/
theorem not_parity_eq_even_ones (w : Word) :
    (!parity w) = decide (((List.range 16).filter fun i => w.getLsbD i).length % 2 = 0) := by
  rw [parity_eq_odd_ones, ← decide_not, decide_eq_decide, Nat.mod_two_not_eq_one]

/-! ## The instructions that write a register -/

section
variable (s : State) (rd ra ri : Reg) (bit : BitVec 4)

theorem exec_cbr : exec (.cbr rd ra bit) s = .next (s.setReg rd (withBit (s.reg ra) bit false)).advance := rfl

theorem exec_sbr : exec (.sbr rd ra bit) s = .next (s.setReg rd (withBit (s.reg ra) bit true)).advance := rfl

theorem exec_ldb : exec (.ldb rd ra bit) s = .next (s.setReg rd (withBit (s.reg ra) bit (s.flag .t))).advance := rfl

/-- A write of Ra with one bit replaced to Rd, read bit by bit: what CBR, SBR and LDB share. -/
theorem setReg_withBit_step (v : Bool) :
    MoveStep s (s.setReg rd (withBit (s.reg ra) bit v)).advance rd (withBit (s.reg ra) bit v)
      ∧ ∀ i, i < 16 → (withBit (s.reg ra) bit v).getLsbD i = if i = bit.toNat then v else (s.reg ra).getLsbD i :=
  ⟨move_step s rd _, fun _ hi => withBit_getLsbD _ bit v hi⟩

/-! ## The instructions that write the T flag -/

theorem exec_stb : exec (.stb ra bit) s = .next (s.finishT ((s.reg ra).getLsbD bit.toNat)) := rfl

theorem exec_stbi : exec (.stbi ra bit) s = .next (s.finishT (!(s.reg ra).getLsbD bit.toNat)) := rfl

theorem exec_stbr : exec (.stbr ra ri) s = .next (s.finishT ((s.reg ra).getLsbD ((s.reg ri).toNat % 16))) := by
  rw [← indexOf_toNat]
  rfl

theorem exec_stbri : exec (.stbri ra ri) s = .next (s.finishT (!(s.reg ra).getLsbD ((s.reg ri).toNat % 16))) := by
  rw [← indexOf_toNat]
  rfl

theorem exec_spr : exec (.spr ra) s = .next (s.finishT (parity (s.reg ra))) := rfl

theorem exec_spri : exec (.spri ra) s = .next (s.finishT (!parity (s.reg ra))) := rfl

end

/-! ## The obligations -/

/-- Settles O34: the three instructions are `setReg_withBit_step` for the bits 0, 1 and T. -/
theorem bitWrites : Obligations.BitWrites := by
  unfold Obligations.BitWrites
  intro s rd ra bit
  have step := setReg_withBit_step s rd ra bit
  exact ⟨⟨_, _, exec_cbr s rd ra bit, step false⟩, ⟨_, _, exec_sbr s rd ra bit, step true⟩,
    ⟨_, _, exec_ldb s rd ra bit, step (s.flag .t)⟩⟩

/-- Settles O35: each of the six ends as `finishT_step`; for SPR and SPRI the count of the 1 bits is the parity
(`parity_eq_odd_ones`, `not_parity_eq_even_ones`). -/
theorem bitTests : Obligations.BitTests := by
  unfold Obligations.BitTests
  rintro s ra ri bit ones rfl
  rw [← parity_eq_odd_ones, ← not_parity_eq_even_ones]
  exact ⟨⟨_, exec_stb s ra bit, finishT_step s _⟩, ⟨_, exec_stbi s ra bit, finishT_step s _⟩,
    ⟨_, exec_stbr s ra ri, finishT_step s _⟩, ⟨_, exec_stbri s ra ri, finishT_step s _⟩,
    ⟨_, exec_spr s ra, finishT_step s _⟩, ⟨_, exec_spri s ra, finishT_step s _⟩⟩

end Sys2Proof.Proofs
end

section
/-! PROOFS. Coprocessor #0, system calls, and what traps in user mode (O37, O45, O46). -/

namespace Sys2Proof.Proofs

open Sys2Proof.Machine Sys2Proof.Laws

/-! ## Coprocessor #0 -/

section
variable {s : State} (allowed : s.inSystem = true ∨ s.msr.getLsbD 10 = false)
include allowed

theorem cpAllowed_cp0 : s.cpAllowed .cp0 = true := by
  simpa [State.cpAllowed, bitCP, -BitVec.getLsbD_eq_getElem] using allowed

/-- With nothing attached MRC reads 0 (R243). -/
theorem exec_mrc_cp0_absent (absent : s.params.cp0Present = false) (rd : Reg) (ca : CReg) (cmd : BitVec 3) :
    exec (.mrc .cp0 rd ca cmd) s = .next (s.setReg rd 0).advance := by
  refine (if_pos (cpAllowed_cp0 allowed)).trans ?_
  simp [State.cpRead, absent]

/-- With logic attached MRC shows it the transaction and reads its answer (R241, R243). -/
theorem exec_mrc_cp0_present (present : s.params.cp0Present = true) (rd : Reg) (ca : CReg) (cmd : BitVec 3) :
    exec (.mrc .cp0 rd ca cmd) s =
      .next ((s.drawn.emit (.coprocessorRead (rd.toBits ++ (ca ++ cmd)))).setReg rd
        (Config.cp0Reply s.draws)).advance := by
  refine (if_pos (cpAllowed_cp0 allowed)).trans ?_
  simp [State.cpRead, State.cp0Transaction, present, cpCommandBits]

theorem exec_mcr_cp0 (cd : CReg) (ra : Reg) (cmd : BitVec 3) :
    exec (.mcr .cp0 cd ra cmd) s =
      .next (s.cp0Transaction (.coprocessorWrite (cd ++ (ra.toBits ++ cmd)) (s.reg ra))).advance :=
  if_pos (cpAllowed_cp0 allowed)

theorem exec_cdp_cp0 (ca cb : CReg) (cmd : BitVec 3) :
    exec (.cdp .cp0 ca cb cmd) s = .next (s.cp0Transaction (.coprocessorCommand (ca ++ (cb ++ cmd)))).advance :=
  if_pos (cpAllowed_cp0 allowed)

end

theorem cp0Transaction_absent {s : State} (absent : s.params.cp0Present = false) (o : HostOutput) :
    s.cp0Transaction o = s := by
  simp [State.cp0Transaction, absent]

theorem cp0Transaction_present {s : State} (present : s.params.cp0Present = true) (o : HostOutput) :
    s.cp0Transaction o = s.emit o := by
  simp [State.cp0Transaction, present]

/-- The count of draws is in no frame. -/
theorem frame_of_draws {s t : State} {d : Nat} {W : List (Bool × Reg)} {bits : List Nat}
    (h : Frame { s with draws := d } t W bits) : Frame s t W bits :=
  ⟨⟨h.registers.regs, h.registers.msr⟩, h.mmu, h.sleeping, { h.devices with }, { h.memory with }⟩

/-- Settles O37: with nothing attached the transactions are no more than the end of the instruction, with logic attached
they are `State.emit` and that end. -/
theorem externalCoprocessor : Obligations.ExternalCoprocessor := by
  unfold Obligations.ExternalCoprocessor
  intro s rd ra ca cb cmd allowed
  refine ⟨fun absent => ?_, fun present => ?_⟩
  · rw [exec_mrc_cp0_absent allowed absent, exec_mcr_cp0 allowed, exec_cdp_cp0 allowed, cp0Transaction_absent absent,
      cp0Transaction_absent absent]
    obtain ⟨pc, frame⟩ := advance_spec s
    exact ⟨⟨_, rfl, move_step s rd 0⟩, ⟨_, rfl, pc, frame⟩, _, rfl, pc, frame⟩
  · rw [exec_mrc_cp0_present allowed present, exec_mcr_cp0 allowed, exec_cdp_cp0 allowed, cp0Transaction_present present,
      cp0Transaction_present present]
    have moved := move_step (s.drawn.emit (.coprocessorRead (rd.toBits ++ (ca ++ cmd)))) rd (Config.cp0Reply s.draws)
    have emitted (o : HostOutput) : Frame { s with record := s.record ++ [o] } (s.emit o).advance [] [] :=
      (advance_spec (s.emit o)).2
    exact ⟨⟨_, rfl, moved.pc, frame_of_draws moved.frame⟩, ⟨_, rfl, rfl, emitted _⟩, _, rfl, rfl, emitted _⟩

/-! ## The traps of user mode -/

/-- SYSCALL is trap entry in either mode (R259, R286). -/
theorem exec_syscall (s : State) (tag : BitVec 10) : exec (.syscall tag) s = .next (s.raiseTrap .systemCall) := rfl

/-- What user mode may not execute: the list of R285, and coprocessor #0 behind MSR.CP (R239). -/
def Forbidden (s : State) (i : Instr) : Prop :=
  systemOnly i = true ∨ (usesCp0 i = true ∧ s.msr.getLsbD 10 = true)

/-- In user mode the check in front of a coprocessor instruction lets coprocessor #0 through, where MSR.CP is clear (R239). -/
theorem cpAllowed_user {s : State} (user : s.inSystem = false) (cp : Cp) :
    s.cpAllowed cp = true ↔ cp = .cp0 ∧ s.msr.getLsbD 10 = false := by
  cases cp <;> simp [State.cpAllowed, user, bitCP, -BitVec.getLsbD_eq_getElem]

/-- A coprocessor instruction that user mode may not execute fails the check (R239). -/
theorem cpAllowed_forbidden {s : State} (user : s.inSystem = false) {cp : Cp}
    (h : decide (cp = .cp1) = true ∨ (decide (cp = .cp0) = true ∧ s.msr.getLsbD 10 = true)) :
    ¬s.cpAllowed cp = true := by
  rw [cpAllowed_user user]
  rintro ⟨rfl, clear⟩
  simp [clear, -BitVec.getLsbD_eq_getElem] at h

/-- In user mode a forbidden instruction raises the command error trap and does nothing else: its check comes first (R285). -/
theorem exec_forbidden {s : State} {i : Instr} (user : s.inSystem = false) (h : Forbidden s i) :
    exec i s = .next (s.raiseTrap .commandError) := by
  unfold Forbidden at h
  cases i with
  | ldub | stub | sleep => exact if_neg (by simp [user])
  | ldsr rd part | stsr part rb => exact if_neg (by simpa [State.msrAllowed, user, systemOnly, usesCp0] using h)
  | staf set => exact if_neg (by simpa [user, systemOnly, usesCp0] using h)
  | stpc mode ra link ie =>
    have options : mode = .keep → ie = true := by simpa [systemOnly, usesCp0, imp_iff_not_or] using h
    exact if_neg (by simpa [user, stpcUnprivileged] using options)
  | cdp | mrc | mcr => exact if_neg (cpAllowed_forbidden user h)
  | inc | dec | add | adc | sub | neg | sbc | nec | cmp | cpx | and | orr | eor | nand | bic | teq | tst | ldpc | sft
  | ldr | str | swp | b | bl | ldil | ldih | cbr | sbr | ldb | stb | stbi | spr | spri | stbr | stbri | mul | rba | rbr
  | mv | syscall => simp [systemOnly, usesCp0] at h

/-- Settles O45: `raiseTrap_spec` for the trap of `exec_syscall`. -/
theorem systemCall : Obligations.SystemCall := by
  unfold Obligations.SystemCall
  intro s tag
  exact ⟨_, exec_syscall s tag, raiseTrap_spec s .systemCall⟩

/-- Settles O46: `raiseTrap_spec` for the trap of `exec_forbidden`. -/
theorem userModeTraps : Obligations.UserModeTraps := by
  unfold Obligations.UserModeTraps
  intro s i user h
  exact ⟨_, exec_forbidden user h, raiseTrap_spec s .commandError⟩

end Sys2Proof.Proofs
end

section
/-! PROOFS. What user mode cannot change (O49). -/

namespace Sys2Proof.Proofs

open Sys2Proof.Machine Sys2Proof.Laws

/-! ## What the instructions of user mode leave alone -/

theorem systemUntouched_refl (s : State) : SystemUntouched s s :=
  ⟨rfl, fun _ _ => rfl, rfl, rfl, rfl, rfl, rfl, rfl, rfl, rfl, rfl, rfl, rfl, rfl, rfl, rfl⟩

theorem systemUntouched_trans {s t u : State} (h : SystemUntouched s t) (k : SystemUntouched t u) :
    SystemUntouched s u where
  sys := k.sys.trans h.sys
  msr i hi := (k.msr i hi).trans (h.msr i hi)
  mmu := k.mmu.trans h.mmu
  irq := k.irq.trans h.irq
  timer := k.timer.trans h.timer
  lfsr := k.lfsr.trans h.lfsr
  comCtrl := k.comCtrl.trans h.comCtrl
  uart := k.uart.trans h.uart
  spi := k.spi.trans h.spi
  pio := k.pio.trans h.pio
  wb := k.wb.trans h.wb
  pins := k.pins.trans h.pins
  seen := k.seen.trans h.seen
  boundary := k.boundary.trans h.boundary
  rom := k.rom.trans h.rom
  sleeping := k.sleeping.trans h.sleeping

/-- From `s` to `t`, both in user mode, nothing has moved that user mode must not change (R297). -/
structure Confined (s t : State) : Prop where
  user : t.inSystem = false
  untouched : SystemUntouched s t

theorem Confined.start {s : State} (user : s.inSystem = false) : Confined s s := ⟨user, systemUntouched_refl s⟩

/-- The mode is one of the bits that user mode must not change. -/
theorem Confined.andThen {s t u : State} (h : Confined s t) (k : SystemUntouched t u) : Confined s u :=
  ⟨(k.msr 15 (by decide)).trans h.user, systemUntouched_trans h.untouched k⟩

/-- In user mode a register is one of the user bank (R11). -/
theorem Confined.setReg {s t : State} (h : Confined s t) (r : Reg) (w : Word) : Confined s (t.setReg r w) :=
  h.andThen (by constructor <;> simp [h.user])

theorem Confined.setPc {s t : State} (h : Confined s t) (w : Word) : Confined s (t.setPc w) :=
  h.andThen { systemUntouched_refl t with }

theorem Confined.advance {s t : State} (h : Confined s t) : Confined s t.advance := h.setPc _

/-- A write of the MSR below bit 5, the flags of user mode (R17). -/
theorem Confined.setMsr {s t : State} (h : Confined s t) {m : Word}
    (kept : ∀ i, 5 ≤ i → m.getLsbD i = t.msr.getLsbD i) : Confined s { t with msr := m } :=
  h.andThen { systemUntouched_refl t with msr := kept }

/-- In user mode the current flags are those of user mode (R17). -/
theorem Confined.setAluFlags {s t : State} (h : Confined s t) (f : AluFlags) : Confined s (t.setAluFlags f) :=
  h.setMsr fun i hi => setAluFlags_bits t f i (by simp [State.aluBits, h.user, flagBase]; omega)

theorem Confined.setAluFlagsIf {s t : State} (h : Confined s t) (sf : Bool) (f : AluFlags) :
    Confined s (t.setAluFlagsIf sf f) := by
  cases sf with
  | false => exact h
  | true => exact h.setAluFlags f

theorem Confined.finishAlu {s t : State} (h : Confined s t) (rd : Reg) (sf : Bool) (o : AluOut) :
    Confined s (t.finishAlu rd sf o) :=
  ((h.setReg rd _).setAluFlagsIf sf _).advance

theorem Confined.finishTest {s t : State} (h : Confined s t) (f : AluFlags) : Confined s (t.finishTest f) :=
  (h.setAluFlags f).advance

theorem Confined.setFlag {s t : State} (h : Confined s t) (k : Flag) (v : Bool) : Confined s (t.setFlag k v) := by
  have place := flagOffset_le k
  exact h.setMsr fun i hi => (getLsbD_setBit ..).trans (if_neg (by simp [h.user, flagBase]; omega))

theorem Confined.finishT {s t : State} (h : Confined s t) (v : Bool) : Confined s (t.finishT v) :=
  (h.setFlag .t v).advance

theorem Confined.linkIf {s t : State} (h : Confined s t) (link : Bool) : Confined s (t.linkIf link) := by
  cases link with
  | false => exact h
  | true => exact h.setReg .r7 _

theorem Confined.writeBack {s t : State} (h : Confined s t) (ix : Indexing) (ra : Reg) (eff : Word) :
    Confined s (t.writeBack ix ra eff) := by
  unfold State.writeBack
  split
  · exact h.setReg ra eff
  · exact h

/-- A draw and a store in the RAM are no matter of the system's (R55, R61). -/
theorem Confined.stored {s t : State} (h : Confined s t) (addr v : Word) : Confined s (stored t addr v) :=
  h.andThen (by constructor <;> simp [Proofs.stored])

theorem Confined.dataPage {s t : State} (h : Confined s t) : Confined s t.dataPage.2 :=
  h.andThen (by constructor <;> simp)

/-- A transaction of coprocessor #0 touches the record alone (R243). -/
theorem Confined.cp0Transaction {s t : State} (h : Confined s t) (o : HostOutput) : Confined s (t.cp0Transaction o) := by
  unfold State.cp0Transaction
  split
  · exact h.andThen { systemUntouched_refl t with }
  · exact h

/-- The transfer of control that user mode has is a linked branch to a register (R173). -/
theorem transfer_keep (s : State) (ra : Reg) (link : Bool) :
    s.transfer ra .keep link false = (s.linkIf link).setPc (clearBit0 (s.reg ra)) := by
  cases link <;> simp [transfer_spec, returnMsr, State.linkIf, State.setPc]

theorem exec_stpc_keep (s : State) (ra : Reg) (link : Bool) :
    exec (.stpc .keep ra link false) s = .next ((s.linkIf link).setPc (clearBit0 (s.reg ra))) := by
  rw [← transfer_keep]
  exact execStpc_allowed (.inr ⟨rfl, rfl⟩) ra link

/-- STSR of the user flags (R176, R178). -/
theorem Confined.mergeUsrFlags {s t : State} (h : Confined s t) (w : Word) :
    Confined s { t with msr := mergeBits t.msr w (partMask .usrFlags) } :=
  h.setMsr fun i hi => (getLsbD_merge_partMask ..).trans (if_neg (by simpa [partNames] using hi))

/-- STAF of the user set (R179). -/
theorem Confined.setUsrFlagSet {s t : State} (h : Confined s t) (tf n o c z : Bool) :
    Confined s { t with msr := msrWithFlagSet t.msr 0 tf n o c z } :=
  h.setMsr fun i hi => by
    have bit := msrWithFlagSet_getLsbD t.msr 0 tf n o c z (by decide) i
    rwa [if_neg (by omega), if_neg (by omega), if_neg (by omega), if_neg (by omega), if_neg (by omega)] at bit

/-- In user mode STSR writes the user flags and never leaves a mode across pages (R178). -/
theorem exec_stsr_user {s : State} (user : s.inSystem = false) (rb : Reg) :
    exec (.stsr .usrFlags rb) s =
      .next ({ s with msr := mergeBits s.msr (s.reg rb) (partMask .usrFlags) } : State).advance := by
  rw [exec_stsr_allowed (.inr rfl), State.leavesAcrossPages, user]
  rfl

theorem execStr_confined {s : State} (user : s.inSystem = false) (ix : Indexing) (up : Bool) (rd ra : Reg) (off : Offset) :
    EachNext (Confined s) (exec (.str ix up rd ra off) s) := by
  intro t h
  obtain ⟨_, _, rfl⟩ := (execStr_next_iff ..).1 h
  exact (((Confined.start user).stored _ _).writeBack ix ra _).advance

theorem execSwp_confined {s : State} (user : s.inSystem = false) (rd ra rb : Reg) :
    EachNext (Confined s) (exec (.swp rd ra rb) s) := by
  intro t h
  obtain ⟨_, _, _, w, _, rfl⟩ := (execSwp_next_iff ..).1 h
  exact (((Confined.start user).stored _ _).setReg rd _).advance

theorem execLdr_confined {s : State} (user : s.inSystem = false) (ix : Indexing) (up : Bool) (rd ra : Reg) (off : Offset) :
    EachNext (Confined s) (execLdr ix up rd ra off s) := by
  refine .ite .refused ?_
  split
  · exact .next (((Confined.start user).dataPage.setReg rd _).writeBack ix ra _).advance
  · exact .fault

theorem execCp0_confined {s : State} (user : s.inSystem = false) (clear : s.msr.getLsbD 10 = false) (rd ra : Reg)
    (ca cb : CReg) (cmd : BitVec 3) :
    EachNext (Confined s) (exec (.mrc .cp0 rd ca cmd) s) ∧ EachNext (Confined s) (exec (.mcr .cp0 ca ra cmd) s)
      ∧ EachNext (Confined s) (exec (.cdp .cp0 ca cb cmd) s) := by
  have start := Confined.start user
  have emitted (o : HostOutput) : Confined s (s.drawn.emit o) := start.andThen { systemUntouched_refl s with }
  have allowed : s.inSystem = true ∨ s.msr.getLsbD 10 = false := .inr clear
  rw [exec_mcr_cp0 allowed, exec_cdp_cp0 allowed]
  refine ⟨?_, .next (start.cp0Transaction _).advance, .next (start.cp0Transaction _).advance⟩
  cases attached : s.params.cp0Present with
  | false =>
    rw [exec_mrc_cp0_absent allowed attached]
    exact .next (start.setReg rd _).advance
  | true =>
    rw [exec_mrc_cp0_present allowed attached]
    exact .next ((emitted _).setReg rd _).advance

/-- What user mode may execute, but for the system call, is confined to user mode (R285, R297). -/
theorem exec_confined {s : State} {i : Instr} (user : s.inSystem = false) (allowed : ¬Forbidden s i)
    (noCall : ∀ tag, i ≠ .syscall tag) : EachNext (Confined s) (exec i s) := by
  have start := Confined.start user
  have passed : EachNext (Confined s) (.next s.advance) := .next start.advance
  have notListed : systemOnly i = false := by simpa using fun h => allowed (.inl h)
  have unprotected : usesCp0 i = true → s.msr.getLsbD 10 = false := fun h => by simpa using fun set => allowed (.inr ⟨h, set⟩)
  cases i with
  | inc | dec | add | adc | sub | neg | sbc | nec | and | orr | eor | nand | bic | sft => exact .next (start.finishAlu ..)
  | cmp | cpx | teq | tst => exact .next (start.finishTest _)
  | stb | stbi | spr | spri | stbr | stbri => exact .next (start.finishT _)
  | ldpc | ldil | ldih | cbr | sbr | ldb => exact .next (start.setReg ..).advance
  | mul => exact .ite (.next (start.setReg ..).advance) .refused
  | mv => exact .ite (.next (start.setReg ..).advance) passed
  | b c off => exact .ite (.next (start.setPc _)) passed
  | bl c off => exact .ite (.next ((start.linkIf true).setPc _)) passed
  | rba | rbr => exact .ite (.next ((start.linkIf _).setPc _)) passed
  | ldr => exact execLdr_confined user _ _ _ _ _
  | str => exact execStr_confined user _ _ _ _ _
  | swp => exact execSwp_confined user _ _ _
  | ldub | stub | sleep => cases notListed
  | ldsr rd part =>
    obtain rfl : part = .usrFlags := by simpa [systemOnly] using notListed
    rw [exec_ldsr_allowed (.inr rfl)]
    exact .next (start.setReg rd _).advance
  | stsr part rb =>
    obtain rfl : part = .usrFlags := by simpa [systemOnly] using notListed
    rw [exec_stsr_user user]
    exact .next (start.mergeUsrFlags _).advance
  | staf set t n o c z =>
    obtain rfl : set = .usr := by simpa [systemOnly] using notListed
    rw [exec_staf_allowed (.inr rfl)]
    exact .next (start.setUsrFlagSet t n o c z).advance
  | stpc mode ra link ie =>
    obtain ⟨rfl, rfl⟩ : mode = .keep ∧ ie = false := by simpa [systemOnly] using notListed
    rw [exec_stpc_keep]
    exact .next ((start.linkIf link).setPc _)
  | mrc cp rd ca cmd =>
    obtain rfl : cp = .cp0 := by cases cp with | cp0 => rfl | cp1 => cases notListed
    exact (execCp0_confined user (unprotected rfl) rd rd ca ca cmd).1
  | mcr cp cd ra cmd =>
    obtain rfl : cp = .cp0 := by cases cp with | cp0 => rfl | cp1 => cases notListed
    exact (execCp0_confined user (unprotected rfl) ra ra cd cd cmd).2.1
  | cdp cp ca cb cmd =>
    obtain rfl : cp = .cp0 := by cases cp with | cp0 => rfl | cp1 => cases notListed
    exact (execCp0_confined user (unprotected rfl) .r0 .r0 ca cb cmd).2.2
  | syscall tag => exact absurd rfl (noCall tag)

/-- Settles O49: the instruction is forbidden, a system call, or confined (`exec_confined`). -/
theorem userModeConfined : Obligations.UserModeConfined := by
  unfold Obligations.UserModeConfined
  intro s t i user h
  by_cases forbidden : Forbidden s i
  · rw [exec_forbidden user forbidden] at h
    cases h
    exact .inl ⟨forbidden, raiseTrap_spec s .commandError⟩
  · by_cases call : ∃ tag, i = .syscall tag
    · obtain ⟨tag, rfl⟩ := call
      cases h
      exact .inr (.inl ⟨⟨tag, rfl⟩, raiseTrap_spec s .systemCall⟩)
    · have confined := exec_confined user forbidden (not_exists.1 call) t h
      simp only [Forbidden, not_or, Bool.not_eq_true] at forbidden
      obtain ⟨notListed, unprotected⟩ := forbidden
      exact .inr (.inr ⟨notListed, unprotected, confined.user, confined.untouched⟩)

end Sys2Proof.Proofs
end

section
/-! PROOFS. The ways from user mode into system mode (O51). -/

namespace Sys2Proof.Proofs

open Sys2Proof.Machine Sys2Proof.Laws

/-- `t` is a state of user mode `s` after trap entry: at a vector with interrupts off, the old mode and pages saved and the
system pages at mmu_irq_base (R290). -/
def EntersSystem (s t : State) : Prop :=
  (t.pc = 0x0002 ∨ t.pc = 0x0004 ∨ t.pc = 0x0006 ∨ t.pc = 0x0008)
    ∧ (t.sys.get .r7 = s.pc + 2 ∨ t.sys.get .r7 = s.pc + 4)
    ∧ t.msr.getLsbD 14 = false ∧ t.msr.getLsbD 11 = false
    ∧ t.mmu.sysI = s.mmu.irqBase ∧ t.mmu.sysD = s.mmu.irqBase
    ∧ t.mmu.iLink = s.mmu.usrI ∧ t.mmu.dLink = s.mmu.usrD

/-- Trap entry from user mode, with the link of an interrupt or of an exception (R290, R291). -/
theorem entersSystem_of_trapEntered {s t : State} {k : Trap} {link : Word} (user : s.inSystem = false)
    (entered : TrapEntered s t k.vector link) (hlink : link = s.pc + 2 ∨ link = s.pc + 4) : EntersSystem s t := by
  have mode : s.msr.getLsbD 15 = false := user
  refine ⟨?vector, entered.link ▸ hlink, entered.previous.trans mode, entered.interrupts, entered.sysI, entered.sysD,
    entered.iLink.trans ?_, entered.dLink.trans ?_⟩
  case vector =>
    rw [entered.pc]
    cases k <;> decide
  all_goals rw [mode]; rfl

theorem entersSystem_takeInterrupt {s : State} (user : s.inSystem = false) (k : Trap) :
    EntersSystem s (s.takeInterrupt k) :=
  entersSystem_of_trapEntered user (takeInterrupt_spec s k) (.inl rfl)

/-- Only the pc and the pages of the state before count. -/
theorem EntersSystem.of_same {s u t : State} (h : EntersSystem u t) (hpc : u.pc = s.pc) (hmmu : u.mmu = s.mmu) :
    EntersSystem s t := by
  unfold EntersSystem at h ⊢
  rwa [hpc, hmmu] at h

/-- Where the end of a turn brings a core into system mode, it has woken it into an interrupt (R253). -/
theorem endTurn_entersSystem {s t : State} (user : t.inSystem = false) (system : (s.endTurn t).inSystem = true) :
    EntersSystem t (s.endTurn t) := by
  rcases endTurn_cases s t with e | ⟨_, _, _, ⟨k, _, e⟩ | ⟨_, e⟩⟩
  · rw [e] at system
    exact absurd (user.symm.trans system) nofun
  · rw [e]
    exact entersSystem_takeInterrupt user k
  · rw [e] at system
    exact absurd (user.symm.trans system) nofun

/-- The end of a turn does not move a core that is awake or has no enabled request, nor one whose clock stands (R253). -/
theorem endTurn_quiet (s : State) {t : State} (quiet : t.clocked = false ∨ t.sleeping = false ∨ t.wakes = false) :
    s.endTurn t = s.showPins t := by
  rcases endTurn_cases s t with e | ⟨runs, asleep, wakes, _⟩
  · exact e
  · rcases quiet with q | q | q
    · exact absurd (q.symm.trans runs) nofun
    · exact absurd (q.symm.trans asleep) nofun
    · exact absurd (q.symm.trans wakes) nofun

theorem endTurn_awake (s : State) {t : State} (awake : t.sleeping = false) : s.endTurn t = s.showPins t :=
  endTurn_quiet s (.inr (.inl awake))

/-- An instruction of user mode is trap entry, with the core awake, or stays in user mode and leaves the run state (R285,
R286, R297). -/
theorem exec_fromUser {s t : State} {i : Instr} (user : s.inSystem = false) (h : exec i s = .next t) :
    (EntersSystem s t ∧ t.sleeping = false) ∨ (t.inSystem = false ∧ t.sleeping = s.sleeping) := by
  rcases userModeConfined s t i user h with ⟨_, trapped⟩ | ⟨_, trapped⟩ | ⟨_, _, stays, untouched⟩
  · exact .inl ⟨entersSystem_of_trapEntered (k := .commandError) user trapped (.inr rfl), trapped.running⟩
  · exact .inl ⟨entersSystem_of_trapEntered (k := .systemCall) user trapped (.inr rfl), trapped.running⟩
  · exact .inr ⟨stays, untouched.sleeping⟩

/-- A turn that lets a clock cycle pass can only wake the core (R252, R253). -/
theorem endTurn_clockCycle_entersSystem {s v : State} (user : s.inSystem = false)
    (system : (v.endTurn s.clockCycle).inSystem = true) : EntersSystem s (v.endTurn s.clockCycle) := by
  have stays : s.clockCycle.inSystem = false := (inSystem_of_msr (clockCycle_msr s)).trans user
  exact (endTurn_entersSystem stays system).of_same (clockCycle_pc s) (clockCycle_mmu s)

theorem coreTurn_entersSystem {s t v : State} (user : s.inSystem = false) (h : s.coreTurn = .next t)
    (system : (v.endTurn t).inSystem = true) : EntersSystem s (v.endTurn t) := by
  rcases coreTurn_next h with ⟨_, rfl⟩ | ⟨awake, i, _, executed⟩
  · exact endTurn_clockCycle_entersSystem user system
  · obtain ⟨_, u, hu, rfl⟩ := execute_next executed
    have began : (s.beginInstruction i).inSystem = false := user
    have mode : u.clockCycle.inSystem = u.inSystem := inSystem_of_msr (clockCycle_msr u)
    have run : u.clockCycle.sleeping = u.sleeping := clockCycle_sleeping u
    rcases exec_fromUser began hu with ⟨entered, awake'⟩ | ⟨stays, same⟩
    · rw [endTurn_awake v (run.trans awake')]
      unfold EntersSystem at entered ⊢
      simpa using entered
    · rw [endTurn_awake v (run.trans (same.trans awake))] at system
      exact absurd ((mode.trans stays).symm.trans system) nofun

theorem interruptTurn_entersSystem {s t v : State} (user : s.inSystem = false) (h : s.interruptTurn = .next t)
    (system : (v.endTurn t).inSystem = true) : EntersSystem s (v.endTurn t) := by
  rcases interruptTurn_next h with ⟨_, rfl⟩ | ⟨_, _, rfl⟩ | ⟨_, _, _, k, _, rfl⟩
  · exact endTurn_clockCycle_entersSystem user system
  · exact endTurn_entersSystem user system
  · rw [endTurn_awake v rfl]
    exact entersSystem_takeInterrupt user k

/-- No agent but the reset touches the registers of the core (R7). -/
theorem agentAct_registers {e : AgentEvent} (s : State) (he : e ≠ .reset) :
    (agentAct e s).pc = s.pc ∧ (agentAct e s).msr = s.msr ∧ (agentAct e s).usr = s.usr ∧ (agentAct e s).sys = s.sys := by
  rcases agentAct_core e s he with core | ⟨page, a, w, _, _, _, stored⟩
  · exact ⟨core.pc, core.msr, core.usr, core.sys⟩
  · rw [stored]
    exact ⟨rfl, rfl, rfl, rfl⟩

/-- No agent but the reset brings the core into system mode otherwise than by waking it (R7, R296). -/
theorem agentTurn_entersSystem {s v : State} {e : AgentEvent} (user : s.inSystem = false) (he : e ≠ .reset)
    (system : (v.endTurn (agentAct e s)).inSystem = true) : EntersSystem s (v.endTurn (agentAct e s)) := by
  obtain ⟨pc, msr, _⟩ := agentAct_registers s he
  exact (endTurn_entersSystem ((inSystem_of_msr msr).trans user) system).of_same pc (agentAct_mmu s he)

/-- Settles O51: by the agent of the step. -/
theorem systemModeEntry : Obligations.SystemModeEntry := by
  unfold Obligations.SystemModeEntry
  intro s t h user system
  obtain ⟨script, draws, chosen⟩ := nextTurn_spec s
  have user' : s.nextTurn.2.inSystem = false := by rw [chosen]; exact user
  have entered (he : EntersSystem s.nextTurn.2 t) : EntersSystem s t := he.of_same (by rw [chosen]) (by rw [chosen])
  rcases step_next h with ⟨_, rfl⟩ | ⟨_, _, u, hu, rfl⟩ | ⟨_, _, u, hu, rfl⟩ | ⟨e, he, rfl⟩
  · exact absurd (user'.symm.trans system) nofun
  · exact .inr (entered (coreTurn_entersSystem user' hu system))
  · exact .inr (entered (interruptTurn_entersSystem user' hu system))
  · by_cases hr : e = .reset
    · subst hr
      exact .inl ⟨he, by rw [endTurn_awake _ rfl]; rfl⟩
    · exact .inr (entered (agentTurn_entersSystem user' hr system))

end Sys2Proof.Proofs
end

section
/-! PROOFS. What user mode cannot see does not show (O50). -/

namespace Sys2Proof.Proofs

open Sys2Proof.Machine Sys2Proof.Laws

/-! ## What user mode reads is the same -/

section Reads
variable {a b : State} (h : SameForUser a b)
include h

theorem alike_reg (r : Reg) : a.reg r = b.reg r := by simp [State.reg, h.modeA, h.modeB, h.usr]

/-- The flags of user mode are the same bits (R17). -/
theorem alike_userFlags {i : Nat} (hi : i < 5) : a.msr.getLsbD i = b.msr.getLsbD i := by
  simpa [hi, -BitVec.getLsbD_eq_getElem] using congrArg (·.getLsbD i) h.flags

/-- Of the MSR, user mode reads its flags alone (R176). -/
theorem alike_usrFlags_part : a.msr &&& partMask .usrFlags = b.msr &&& partMask .usrFlags := by
  refine BitVec.eq_of_getLsbD_eq fun i _ => ?_
  rw [getLsbD_and_partMask, getLsbD_and_partMask]
  by_cases hi : i < 5
  · rw [alike_userFlags h hi]
  · simp [partNames, hi]

theorem alike_flag (k : Flag) : a.flag k = b.flag k := by
  have place := flagOffset_le k
  simp only [State.flag, h.modeA, h.modeB, flagBase]
  exact alike_userFlags h (by simp; omega)

theorem alike_aluFlags : a.aluFlags = b.aluFlags := by simp only [State.aluFlags, alike_flag h]

theorem alike_cond (c : Cond) : a.cond c = b.cond c := by simp only [State.cond, alike_flag h]

theorem alike_subtract (x y : Word) (bin : Bool) : a.subtract x y bin = b.subtract x y bin := by
  simp only [State.subtract, h.params]

theorem alike_borrowFrom (c : Bool) : a.borrowFrom c = b.borrowFrom c := by simp only [State.borrowFrom, h.params]

theorem alike_effective (up : Bool) (ra : Reg) (off : Offset) : a.effective up ra off = b.effective up ra off := by
  cases off <;> simp only [State.effective, State.offset, alike_reg h]

theorem alike_accessAddress (ix : Indexing) (up : Bool) (ra : Reg) (off : Offset) :
    a.accessAddress ix up ra off = b.accessAddress ix up ra off := by
  rw [accessAddress_eq, accessAddress_eq, alike_reg h, alike_effective h]

theorem alike_memRead (page addr : Word) : a.memRead page addr = b.memRead page addr := by
  simp only [State.memRead, State.wordAt, h.ram, h.rom, h.params]

theorem alike_hitsFetched (f page addr : Word) : a.hitsFetched f page addr = b.hitsFetched f page addr := by
  simp only [State.hitsFetched, h.params, h.pc]

end Reads

/-! ## The updates of user mode keep two states alike -/

/-- What user mode may change of the fields that `SameForUser` speaks of. -/
def userView (s : State) : Word × Bank × BitVec 5 × Memory × Params × Nat :=
  (s.pc, s.usr, s.msr.extractLsb' 0 5, s.ram, s.params, s.draws)

section Updates
variable {a b : State} (h : SameForUser a b)
include h

/-- What confined changes do not show stays alike, so only the view of user mode is left to compare (R297). -/
theorem alike_of_confined {t u : State} (ha : Confined a t) (hb : Confined b u) (view : userView t = userView u) :
    SameForUser t u := by
  simp only [userView, Prod.mk.injEq] at view
  obtain ⟨pc, usr, flags, ram, params, draws⟩ := view
  have mmuA := ha.untouched.mmu
  have mmuB := hb.untouched.mmu
  exact
    { modeA := ha.user, modeB := hb.user, pc := pc, usr := usr, flags := flags, ram := ram, params := params
      draws := draws
      protection := by rw [ha.untouched.msr 10 (by decide), hb.untouched.msr 10 (by decide), h.protection]
      usrI := by rw [mmuA, mmuB, h.usrI]
      usrD := by rw [mmuA, mmuB, h.usrD]
      rom := by rw [ha.untouched.rom, hb.untouched.rom, h.rom] }

theorem alike_setReg (r : Reg) (w : Word) : SameForUser (a.setReg r w) (b.setReg r w) :=
  alike_of_confined h ((Confined.start h.modeA).setReg r w) ((Confined.start h.modeB).setReg r w)
    (by simp [userView, h.modeA, h.modeB, h.pc, h.usr, h.flags, h.ram, h.params, h.draws])

theorem alike_setPc (w : Word) : SameForUser (a.setPc w) (b.setPc w) :=
  alike_of_confined h ((Confined.start h.modeA).setPc w) ((Confined.start h.modeB).setPc w)
    (by simp [userView, h.usr, h.flags, h.ram, h.params, h.draws])

theorem alike_advance : SameForUser a.advance b.advance := by
  have moved := alike_setPc h (a.pc + 2)
  rwa [State.advance, State.advance, ← h.pc]

theorem alike_emit (o : HostOutput) : SameForUser (a.emit o) (b.emit o) := { h with }

theorem alike_drawn : SameForUser a.drawn b.drawn := { h with draws := congrArg (· + 1) h.draws }

/-- A write of the flags of user mode (R17). -/
theorem alike_setMsr {m n : Word} (ha : Confined a { a with msr := m }) (hb : Confined b { b with msr := n })
    (low : ∀ i, i < 5 → m.getLsbD i = n.getLsbD i) : SameForUser { a with msr := m } { b with msr := n } := by
  have flags : m.extractLsb' 0 5 = n.extractLsb' 0 5 :=
    BitVec.eq_of_getLsbD_eq fun i hi => by simpa [hi, -BitVec.getLsbD_eq_getElem] using low i hi
  exact alike_of_confined h ha hb (by simp [userView, h.pc, h.usr, flags, h.ram, h.params, h.draws])

theorem alike_setAluFlags (f : AluFlags) : SameForUser (a.setAluFlags f) (b.setAluFlags f) := by
  refine alike_setMsr h ((Confined.start h.modeA).setAluFlags f) ((Confined.start h.modeB).setAluFlags f) fun i hi => ?_
  rw [h.modeA, h.modeB, flagBase, msrWithAlu_getLsbD _ _ _ (by decide), msrWithAlu_getLsbD _ _ _ (by decide),
    alike_userFlags h hi]

theorem alike_setFlag (k : Flag) (v : Bool) : SameForUser (a.setFlag k v) (b.setFlag k v) := by
  refine alike_setMsr h ((Confined.start h.modeA).setFlag k v) ((Confined.start h.modeB).setFlag k v) fun i hi => ?_
  rw [h.modeA, h.modeB, getLsbD_setBit, getLsbD_setBit, alike_userFlags h hi]

theorem alike_mergeUsrFlags {w w' : Word} (same : w = w') :
    SameForUser { a with msr := mergeBits a.msr w (partMask .usrFlags) }
      { b with msr := mergeBits b.msr w' (partMask .usrFlags) } := by
  subst same
  refine alike_setMsr h ((Confined.start h.modeA).mergeUsrFlags w) ((Confined.start h.modeB).mergeUsrFlags w)
    fun i hi => ?_
  rw [getLsbD_merge_partMask, getLsbD_merge_partMask, alike_userFlags h hi]

theorem alike_setUsrFlagSet (tf n o c z : Bool) :
    SameForUser { a with msr := msrWithFlagSet a.msr 0 tf n o c z } { b with msr := msrWithFlagSet b.msr 0 tf n o c z } := by
  refine alike_setMsr h ((Confined.start h.modeA).setUsrFlagSet tf n o c z)
    ((Confined.start h.modeB).setUsrFlagSet tf n o c z) fun i hi => ?_
  rw [msrWithFlagSet_getLsbD _ _ _ _ _ _ _ (by decide), msrWithFlagSet_getLsbD _ _ _ _ _ _ _ (by decide),
    alike_userFlags h hi]

theorem alike_finishAlu (rd : Reg) (sf : Bool) {o o' : AluOut} (same : o = o') :
    SameForUser (a.finishAlu rd sf o) (b.finishAlu rd sf o') := by
  subst same
  have written := alike_setReg h rd o.result
  cases sf with
  | false => exact alike_advance written
  | true => exact alike_advance (alike_setAluFlags written o.flags)

theorem alike_finishTest {f f' : AluFlags} (same : f = f') : SameForUser (a.finishTest f) (b.finishTest f') := by
  subst same
  exact alike_advance (alike_setAluFlags h f)

theorem alike_finishT {v v' : Bool} (same : v = v') : SameForUser (a.finishT v) (b.finishT v') := by
  subst same
  exact alike_advance (alike_setFlag h .t v)

theorem alike_move (rd : Reg) {w w' : Word} (same : w = w') : SameForUser (a.setReg rd w).advance (b.setReg rd w').advance := by
  subst same
  exact alike_advance (alike_setReg h rd w)

theorem alike_linkIf (link : Bool) : SameForUser (a.linkIf link) (b.linkIf link) := by
  cases link with
  | false => exact h
  | true =>
    have linked := alike_setReg h .r7 (a.pc + 2)
    unfold State.linkIf
    rwa [if_pos rfl, if_pos rfl, ← h.pc]

theorem alike_branch (link : Bool) {w w' : Word} (same : w = w') :
    SameForUser ((a.linkIf link).setPc w) ((b.linkIf link).setPc w') := by
  subst same
  exact alike_setPc (alike_linkIf h link) w

theorem alike_writeBack (ix : Indexing) (ra : Reg) {w w' : Word} (same : w = w') :
    SameForUser (a.writeBack ix ra w).advance (b.writeBack ix ra w').advance := by
  subst same
  unfold State.writeBack
  split
  · exact alike_advance (alike_setReg h ra w)
  · exact alike_advance h

theorem alike_cp0Transaction (o : HostOutput) : SameForUser (a.cp0Transaction o) (b.cp0Transaction o) := by
  unfold State.cp0Transaction
  rw [h.params]
  split
  · exact alike_emit h o
  · exact h

end Updates

/-! ## Two answers that user mode cannot tell apart -/

/-- The two answers are of one kind; states after it show user mode the same pc and bank, and stay alike in user mode. -/
inductive EndsAlike : Result State → Result State → Prop
  | next {t u : State} (mode : t.inSystem = u.inSystem) (pc : t.pc = u.pc) (usr : t.usr = u.usr)
      (alike : t.inSystem = false → SameForUser t u) : EndsAlike (.next t) (.next u)
  | fault (f : Fault) : EndsAlike (.fault f) (.fault f)
  | refused (q : Refusal) : EndsAlike (.refused q) (.refused q)

theorem EndsAlike.user {t u : State} (h : SameForUser t u) : EndsAlike (.next t) (.next u) :=
  .next (h.modeA.trans h.modeB.symm) h.pc h.usr fun _ => h

theorem EndsAlike.ite {c d : Bool} (same : c = d) {r r' q q' : Result State} (hr : EndsAlike r r') (hq : EndsAlike q q') :
    EndsAlike (if c then r else q) (if d then r' else q') := by
  subst same
  split
  · exact hr
  · exact hq

/-- Trap entry looks at nothing that user mode cannot see but to save it (R290). -/
theorem EndsAlike.raiseTrap {a b : State} (h : SameForUser a b) (k : Trap) :
    EndsAlike (.next (a.raiseTrap k)) (.next (b.raiseTrap k)) := by
  have modeA : (a.raiseTrap k).inSystem = true := (raiseTrap_spec a k).mode
  have modeB : (b.raiseTrap k).inSystem = true := (raiseTrap_spec b k).mode
  exact .next (modeA.trans modeB.symm) rfl h.usr fun user => absurd (modeA.symm.trans user) nofun

/-! ## The memory instructions -/

theorem dataPage_user {s : State} (user : s.inSystem = false) : s.dataPage = (s.mmu.usrD, s) := by
  simp [State.dataPage, user]

theorem iPage_user {s : State} (user : s.inSystem = false) : s.iPage = s.mmu.usrI := by simp [State.iPage, user]

section
variable {a b : State} (h : SameForUser a b)
include h

/-- A store goes on in both states, which stay alike, or is refused in both for one reason (R61, R68). -/
theorem alike_memWrite (f page addr v : Word) :
    (∃ t u, a.memWrite f page addr v = .ok t ∧ b.memWrite f page addr v = .ok u ∧ SameForUser t u)
      ∨ ∃ q, a.memWrite f page addr v = .error q ∧ b.memWrite f page addr v = .error q := by
  unfold State.memWrite
  rw [alike_hitsFetched h, h.ram, h.params]
  split
  · exact .inr ⟨_, rfl, rfl⟩
  · split
    · exact .inr ⟨_, rfl, rfl⟩
    · exact .inl ⟨_, _, rfl, rfl, { h with ram := rfl, params := rfl }⟩

theorem execLdr_alike (ix : Indexing) (up : Bool) (rd ra : Reg) (off : Offset) :
    EndsAlike (execLdr ix up rd ra off a) (execLdr ix up rd ra off b) := by
  refine .ite rfl (.refused _) ?_
  simp only [dataPage_user h.modeA, dataPage_user h.modeB, h.usrD, alike_memRead h, alike_accessAddress h]
  split
  · exact .user (alike_writeBack (alike_setReg h rd _) ix ra (alike_effective h up ra off))
  · exact .fault _

theorem execStr_alike (ix : Indexing) (up : Bool) (rd ra : Reg) (off : Offset) :
    EndsAlike (execStr ix up rd ra off a) (execStr ix up rd ra off b) := by
  unfold execStr
  simp only [dataPage_user h.modeA, dataPage_user h.modeB, iPage_user h.modeA, iPage_user h.modeB, h.usrD, h.usrI,
    alike_accessAddress h, alike_reg h]
  rcases alike_memWrite h b.mmu.usrI b.mmu.usrD (b.accessAddress ix up ra off) (b.reg rd) with
    ⟨t, u, ha, hb, alike⟩ | ⟨q, ha, hb⟩
  · rw [ha, hb]
    exact .user (alike_writeBack alike ix ra (alike_effective h up ra off))
  · rw [ha, hb]
    exact .refused q

theorem execSwp_alike (rd ra rb : Reg) : EndsAlike (execSwp rd ra rb a) (execSwp rd ra rb b) := by
  unfold execSwp
  simp only [dataPage_user h.modeA, dataPage_user h.modeB, iPage_user h.modeA, iPage_user h.modeB, h.usrD, h.usrI,
    alike_memRead h, alike_reg h]
  split
  · exact .refused _
  · split
    · exact .fault _
    · rcases alike_memWrite h b.mmu.usrI b.mmu.usrD (b.reg ra) (b.reg rb) with ⟨t, u, ha, hb, alike⟩ | ⟨q, ha, hb⟩
      · rw [ha, hb]
        exact .user (alike_move alike rd rfl)
      · rw [ha, hb]
        exact .refused q

/-! ## The instructions -/

theorem execCp0_alike (clear : a.msr.getLsbD 10 = false) (rd ra : Reg) (ca cb : CReg) (cmd : BitVec 3) :
    EndsAlike (exec (.mrc .cp0 rd ca cmd) a) (exec (.mrc .cp0 rd ca cmd) b)
      ∧ EndsAlike (exec (.mcr .cp0 ca ra cmd) a) (exec (.mcr .cp0 ca ra cmd) b)
      ∧ EndsAlike (exec (.cdp .cp0 ca cb cmd) a) (exec (.cdp .cp0 ca cb cmd) b) := by
  have allowedA : a.inSystem = true ∨ a.msr.getLsbD 10 = false := .inr clear
  have allowedB : b.inSystem = true ∨ b.msr.getLsbD 10 = false := .inr (h.protection.symm.trans clear)
  rw [exec_mcr_cp0 allowedA, exec_mcr_cp0 allowedB, exec_cdp_cp0 allowedA, exec_cdp_cp0 allowedB, alike_reg h]
  refine ⟨?_, .user (alike_advance (alike_cp0Transaction h _)), .user (alike_advance (alike_cp0Transaction h _))⟩
  cases attached : a.params.cp0Present with
  | false =>
    rw [exec_mrc_cp0_absent allowedA attached, exec_mrc_cp0_absent allowedB (h.params ▸ attached)]
    exact .user (alike_move h rd rfl)
  | true =>
    rw [exec_mrc_cp0_present allowedA attached, exec_mrc_cp0_present allowedB (h.params ▸ attached), h.draws]
    exact .user (alike_move (alike_emit (alike_drawn h) _) rd rfl)

/-- An instruction that user mode may execute ends alike: it reads only what is the same in both states (R297). -/
theorem exec_allowed_alike {i : Instr} (allowed : ¬Forbidden a i) : EndsAlike (exec i a) (exec i b) := by
  have passed : EndsAlike (.next a.advance) (.next b.advance) := .user (alike_advance h)
  have notListed : systemOnly i = false := by simpa using fun h => allowed (.inl h)
  have unprotected : usesCp0 i = true → a.msr.getLsbD 10 = false := fun h => by simpa using fun set => allowed (.inr ⟨h, set⟩)
  cases i with
  | inc | dec | add | adc | sub | neg | sbc | nec | and | orr | eor | nand | bic | sft =>
    exact .user (alike_finishAlu h _ _ (by
      simp only [alike_reg h, alike_flag h, alike_aluFlags h, alike_subtract h, alike_borrowFrom h]))
  | cmp | cpx | teq | tst =>
    exact .user (alike_finishTest h (by
      simp only [alike_reg h, alike_flag h, alike_aluFlags h, alike_subtract h, alike_borrowFrom h]))
  | stb | stbi | spr | spri | stbr | stbri => exact .user (alike_finishT h (by simp only [alike_reg h]))
  | ldpc | ldil | ldih | cbr | sbr | ldb => exact .user (alike_move h _ (by simp only [alike_reg h, alike_flag h, h.pc]))
  | mul => exact .ite (congrArg _ h.params) (.user (alike_move h _ (by simp only [alike_reg h]))) (.refused _)
  | mv => exact .ite (alike_cond h _) (.user (alike_move h _ (alike_reg h _))) passed
  | b c off => exact .ite (alike_cond h _) (.user (alike_branch h false (by rw [h.pc]))) passed
  | bl c off => exact .ite (alike_cond h _) (.user (alike_branch h true (by rw [h.pc]))) passed
  | rba | rbr => exact .ite (alike_cond h _) (.user (alike_branch h _ (by simp only [alike_reg h, h.pc]))) passed
  | ldr => exact execLdr_alike h _ _ _ _ _
  | str => exact execStr_alike h _ _ _ _ _
  | swp => exact execSwp_alike h _ _ _
  | ldub | stub | sleep => cases notListed
  | ldsr rd part =>
    obtain rfl : part = .usrFlags := by simpa [systemOnly] using notListed
    rw [exec_ldsr_allowed (.inr rfl), exec_ldsr_allowed (.inr rfl)]
    exact .user (alike_move h rd (alike_usrFlags_part h))
  | stsr part rb =>
    obtain rfl : part = .usrFlags := by simpa [systemOnly] using notListed
    rw [exec_stsr_user h.modeA, exec_stsr_user h.modeB]
    exact .user (alike_advance (alike_mergeUsrFlags h (alike_reg h rb)))
  | staf set t n o c z =>
    obtain rfl : set = .usr := by simpa [systemOnly] using notListed
    rw [exec_staf_allowed (.inr rfl), exec_staf_allowed (.inr rfl)]
    exact .user (alike_advance (alike_setUsrFlagSet h t n o c z))
  | stpc mode ra link ie =>
    obtain ⟨rfl, rfl⟩ : mode = .keep ∧ ie = false := by simpa [systemOnly] using notListed
    rw [exec_stpc_keep, exec_stpc_keep]
    exact .user (alike_branch h link (by rw [alike_reg h]))
  | mrc cp rd ca cmd =>
    obtain rfl : cp = .cp0 := by cases cp with | cp0 => rfl | cp1 => cases notListed
    exact (execCp0_alike h (unprotected rfl) rd rd ca ca cmd).1
  | mcr cp cd ra cmd =>
    obtain rfl : cp = .cp0 := by cases cp with | cp0 => rfl | cp1 => cases notListed
    exact (execCp0_alike h (unprotected rfl) ra ra cd cd cmd).2.1
  | cdp cp ca cb cmd =>
    obtain rfl : cp = .cp0 := by cases cp with | cp0 => rfl | cp1 => cases notListed
    exact (execCp0_alike h (unprotected rfl) .r0 .r0 ca cb cmd).2.2
  | syscall tag => exact .raiseTrap h _

theorem exec_alike (i : Instr) : EndsAlike (exec i a) (exec i b) := by
  by_cases forbidden : Forbidden a i
  · have forbiddenB : Forbidden b i := by
      unfold Forbidden at forbidden ⊢
      rwa [← h.protection]
    rw [exec_forbidden h.modeA forbidden, exec_forbidden h.modeB forbiddenB]
    exact .raiseTrap h _
  · exact exec_allowed_alike h forbidden

end

section Answers
variable {r r' : Result State} (h : EndsAlike r r')
include h

theorem endsAlike_next {t : State} (e : r = .next t) :
    ∃ u, r' = .next u ∧ t.inSystem = u.inSystem ∧ t.pc = u.pc ∧ t.usr = u.usr ∧ (t.inSystem = false → SameForUser t u) := by
  cases h with
  | next mode pc usr alike => cases e; exact ⟨_, rfl, mode, pc, usr, alike⟩
  | fault | refused => cases e

theorem endsAlike_fault {f : Fault} (e : r = .fault f) : r' = .fault f := by
  cases h with
  | fault => exact e
  | next | refused => cases e

theorem endsAlike_refused {q : Refusal} (e : r = .refused q) : r' = .refused q := by
  cases h with
  | refused => exact e
  | next | fault => cases e

end Answers

/-- Settles O50: `exec_alike`, by the kind of the answer. -/
theorem userNoninterference : Obligations.UserNoninterference := by
  unfold Obligations.UserNoninterference
  intro a b i h
  have ends := exec_alike h i
  exact ⟨fun _ => endsAlike_next ends, fun _ => endsAlike_fault ends, fun _ => endsAlike_refused ends⟩

end Sys2Proof.Proofs
end

section
/-! PROOFS. How a turn ends, and how a sleeping core is woken (O6, O44). -/

namespace Sys2Proof.Proofs

open Sys2Proof.Machine Sys2Proof.Laws

/-! ## The end of a turn -/

/-- SPI_CS_O is high but for a selected device: auto apply shows the selection only while the SPI is busy (R384). -/
theorem spiCsPins_eq (v : State) :
    v.spiCsPins = if v.comCtrl.getLsbD 4 = true ∧ v.spi.busy = false then 0xFF else ~~~v.spi.cs := by
  unfold State.spiCsPins bitSpiAuto
  cases v.comCtrl.getLsbD 4 <;> cases v.spi.busy <;> rfl

/-- A sleeping core is woken by either masked line (R252). -/
theorem wakes_eq (s : State) : s.wakes = (s.line0 || s.line1) := by
  unfold State.wakes State.line0 State.line1 State.request0 State.request1 IrqCtl.request
  rw [Bool.and_assoc]
  rfl

/-- Settles O6: `endTurn_quiet`, with the pins SPI_CS_O as `spiCsPins_eq` gives them. -/
theorem turnEnd : Obligations.TurnEnd := by
  unfold Obligations.TurnEnd
  intro s t cs hcs quiet
  have pins (v : State) : cs v = v.spiCsPins := (hcs v).trans (spiCsPins_eq v).symm
  have noWake : t.clocked = false ∨ t.sleeping = false ∨ t.wakes = false :=
    quiet.imp id (.imp id fun ⟨h0, h1⟩ => by rw [wakes_eq, h0, h1]; rfl)
  rw [endTurn_quiet s noWake, pins, pins, List.append_assoc, List.append_assoc, ← List.append_assoc (ite _ _ _)]
  rfl

/-! ## Waking -/

/-- What the lines of the core and GX decide about a sleeping core: to sleep on, to go on with the next instruction, or to
take the interrupt, the critical one first (R252, R253, R287). -/
theorem wakeUp_asleep {s : State} (asleep : s.sleeping = true) :
    (s.line0 = false → s.line1 = false → s.wakeUp = s)
      ∧ (s.line0 = true ∨ s.line1 = true → s.msr.getLsbD 11 = false → s.wakeUp = { s with sleeping := false })
      ∧ (s.line0 = true → s.msr.getLsbD 11 = true → s.wakeUp = s.takeInterrupt .critical)
      ∧ (s.line0 = false → s.line1 = true → s.msr.getLsbD 11 = true → s.wakeUp = s.takeInterrupt .controller) := by
  rw [State.wakeUp, asleep, wakes_eq, Bool.true_and, interruptPending_eq]
  refine ⟨fun h0 h1 => ?_, fun line gx => ?_, fun h0 gx => ?_, fun h0 h1 gx => ?_⟩
  · simp only [h0, h1]; rfl
  · rw [gx, if_pos (by simpa using line)]; rfl
  · simp only [h0, gx]; rfl
  · simp only [h0, h1, gx]; rfl

/-! ## SLEEP -/

/-- SLEEP in system mode: on to the next instruction, asleep, and awake at once where a request is active (R252, R253). -/
theorem exec_sleep {s : State} (system : s.inSystem = true) (tag : BitVec 9) :
    exec (.sleep tag) s = .next s.advance.fallAsleep.wakeUp :=
  if_pos system

/-- A core that SLEEP wakes into an interrupt is where the trap of the SLEEP itself would be: the interrupt is taken in
front of the next instruction (R253, R291). -/
theorem sleep_takeInterrupt (s : State) (k : Trap) : s.advance.fallAsleep.takeInterrupt k = s.raiseTrap k := by
  have link : s.pc + 2 + 2 = s.pc + 4 := by rw [BitVec.add_assoc]; rfl
  unfold State.raiseTrap
  rw [← link]
  rfl

theorem sleep_wakes {s : State} (system : s.inSystem = true) (tag : BitVec 9) :
    ∃ t, exec (.sleep tag) s = .next t
      ∧ (s.line0 = false → s.line1 = false → t.pc = s.pc + 2 ∧ Frame { s with sleeping := true } t [] [])
      ∧ (s.line0 = true ∨ s.line1 = true → s.msr.getLsbD 11 = false →
          t.pc = s.pc + 2 ∧ Frame { s with sleeping := false } t [] [])
      ∧ (s.line0 = true → s.msr.getLsbD 11 = true → TrapEntered s t 0x0002 (s.pc + 4))
      ∧ (s.line0 = false → s.line1 = true → s.msr.getLsbD 11 = true → TrapEntered s t 0x0004 (s.pc + 4)) := by
  obtain ⟨sleepsOn, resumes, critical, controller⟩ := wakeUp_asleep (s := s.advance.fallAsleep) rfl
  refine ⟨_, exec_sleep system tag, fun h0 h1 => ?_, fun line gx => ?_, fun h0 gx => ?_, fun h0 h1 gx => ?_⟩
  · rw [sleepsOn h0 h1]
    exact advance_spec { s with sleeping := true }
  · rw [resumes line gx]
    exact advance_spec { s with sleeping := false }
  · rw [critical h0 gx, sleep_takeInterrupt]
    exact raiseTrap_spec s .critical
  · rw [controller h0 h1 gx, sleep_takeInterrupt]
    exact raiseTrap_spec s .controller

/-! ## A turn of a sleeping core -/

/-- A turn of a sleeping core is a clock cycle, whether it is to execute or to take an interrupt (R252, R342). -/
theorem takeTurn_asleep {s : State} {turn : Turn} (hturn : turn = .core ∨ turn = .interrupt) (runs : s.clocked = true)
    (asleep : s.sleeping = true) : takeTurn turn s = .next (s.endTurn s.clockCycle) := by
  rcases hturn with rfl | rfl
  · simp [takeTurn, runs, State.coreTurn, asleep, withEnd]
  · simp [takeTurn, runs, State.interruptTurn, asleep, withEnd]

/-- What happens in a turn of a sleeping core, before it may be woken at the end of the turn. -/
def SleepingTurn (u : State) (turn : Turn) (c : State) : Prop :=
  (turn = .core ∨ turn = .interrupt) ∧ c = u.clockCycle ∨ ∃ e, turn = .agent e ∧ c = agentAct e u

section
variable {u c : State} {turn : Turn} (during : SleepingTurn u turn c) (stillAsleep : c.sleeping = true)
include during

/-- The step is that turn and its end, where the clock runs (R7, R253). -/
theorem takeTurn_sleepingTurn (asleep : u.sleeping = true) (runs : c.clocked = true) :
    takeTurn turn u = .next (u.endTurn c) := by
  rcases during with ⟨own, rfl⟩ | ⟨e, rfl, rfl⟩
  · have same : u.clocked = u.clockCycle.clocked := by simp [State.clocked]
    exact takeTurn_asleep own (same.trans runs) asleep
  · rfl

include stillAsleep

/-- What leaves the core asleep is no reset, and touches no register (R252). -/
theorem sleepingTurn_registers :
    c.pc = u.pc ∧ c.msr = u.msr ∧ c.usr = u.usr ∧ c.sys = u.sys ∧ c.mmu = u.mmu := by
  rcases during with ⟨_, rfl⟩ | ⟨e, _, rfl⟩
  · simp
  · have he : e ≠ .reset := by rintro rfl; cases stillAsleep
    obtain ⟨pc, msr, usr, sys⟩ := agentAct_registers u he
    exact ⟨pc, msr, usr, sys, agentAct_mmu u he⟩

end

/-- Where the clock runs, the turn ends with waking and the pins in the record (R253, R425). -/
theorem endTurn_clocked (s : State) {t : State} (runs : t.clocked = true) : s.endTurn t = s.showPins t.wakeUp := by
  rw [State.endTurn, whenClocked_of_clocked runs]

theorem sameRegisters_of_eq {s t : State} (usr : t.usr = s.usr) (sys : t.sys = s.sys) (msr : t.msr = s.msr) :
    SameRegisters s t [] [] :=
  ⟨fun b r _ => by simp only [State.bankReg, usr, sys], fun i _ => by rw [msr]⟩

/-- Settles O44: `sleep_wakes` for SLEEP, and `wakeUp_asleep` at the end of a turn of a sleeping core. -/
theorem sleepAndWake : Obligations.SleepAndWake := by
  unfold Obligations.SleepAndWake
  refine ⟨fun s tag system => sleep_wakes system tag, ?_⟩
  rintro s _ c turn rest hscript asleep rfl during stillAsleep runs
  obtain ⟨pc, msr, usr, sys, mmu⟩ := sleepingTurn_registers during stillAsleep
  obtain ⟨sleepsOn, resumes, critical, controller⟩ := wakeUp_asleep stillAsleep
  rw [step_scripted hscript, takeTurn_sleepingTurn during asleep runs, endTurn_clocked _ runs]
  simp only at pc msr usr sys mmu
  refine ⟨pc, sameRegisters_of_eq usr sys msr, mmu, ?_⟩
  rw [← pc, ← msr]
  refine ⟨fun h0 h1 => ?_, fun line gx => ?_, fun h0 gx => ?_, fun h0 h1 gx => ?_⟩
  · rw [sleepsOn h0 h1]
  · rw [resumes line gx]; rfl
  · rw [critical h0 gx]
    exact ⟨_, rfl, takeInterrupt_spec (State.showPins _ c) .critical⟩
  · rw [controller h0 h1 gx]
    exact ⟨_, rfl, takeInterrupt_spec (State.showPins _ c) .controller⟩

end Sys2Proof.Proofs
end

section
/-! PROOFS. The register-based branches, MV, MUL, and the return from a system call (O30, O32, O36, O48). -/

namespace Sys2Proof.Proofs

open Sys2Proof.Machine Sys2Proof.Laws

/-! ## The register-based branches -/

/-- A branch to the value `w`, bit 0 dropped, taken where the condition holds: what RBA and RBR share (R254 to R256). -/
theorem registerBranch_spec (s : State) (link : Bool) (cond : Cond) (w : Word) :
    ∃ t, (if s.cond cond then .next ((s.linkIf link).setPc (clearBit0 w)) else .next s.advance : Result State) = .next t
      ∧ (s.cond cond = true → ∀ i, t.pc.getLsbD i = (decide (i ≠ 0) && w.getLsbD i))
      ∧ (s.cond cond = false → t.pc = s.pc + 2)
      ∧ (s.cond cond = true → link = true → t.reg .r7 = s.pc + 2)
      ∧ Frame s t (if s.cond cond && link then [(s.inSystem, .r7)] else []) [] := by
  cases taken : s.cond cond with
  | true =>
    obtain ⟨_, linked, frame⟩ := linkIf_setPc_spec s link (clearBit0 w)
    exact ⟨_, rfl, fun _ => clearBit0_getLsbD w, nofun, fun _ => linked, frame⟩
  | false =>
    obtain ⟨pc, frame⟩ := advance_spec s
    exact ⟨_, rfl, nofun, fun _ => pc, nofun, frame⟩

/-- Settles O30: `registerBranch_spec` for Rb, and for the pc plus Rb. -/
theorem registerBranches : Obligations.RegisterBranches := by
  unfold Obligations.RegisterBranches
  intro s link cond rb
  exact ⟨registerBranch_spec s link cond (s.reg rb), registerBranch_spec s link cond (s.pc + s.reg rb)⟩

/-! ## MV and MUL -/

/-- Settles O32: a move of one register where the condition holds, and the end of the instruction alone where not. -/
theorem conditionalMove : Obligations.ConditionalMove := by
  unfold Obligations.ConditionalMove
  intro s rd rb cond
  cases holds : s.cond cond with
  | true =>
    have step := move_step s rd (s.reg rb)
    exact ⟨_, if_pos holds, step.result, step.pc, step.frame⟩
  | false =>
    have fails : ¬s.cond cond = true := by simp [holds]
    exact ⟨_, if_neg fails, rfl, rfl, frame_advance (frame_refl ..)⟩

/-- The low half of a product is the same for signed and unsigned operands (R250). -/
theorem mul_eq_ofInt (a b : Word) : a * b = BitVec.ofInt 16 (a.toInt * b.toInt) := by
  rw [BitVec.ofInt_mul, BitVec.ofInt_toInt, BitVec.ofInt_toInt]

/-- Settles O36: the move of the product. -/
theorem multiply : Obligations.Multiply := by
  unfold Obligations.Multiply
  intro s rd ra rb
  refine ⟨fun present => ?_, fun absent => if_neg (by simp [absent])⟩
  exact ⟨_, _, if_pos present, move_step s rd _, BitVec.toNat_mul .., mul_eq_ofInt ..⟩

/-! ## The handler of a system call -/

/-- DEC without S, under either sense of SUB_CARRY (R123, R127). -/
theorem exec_dec_noFlags (s : State) (rd ra : Reg) (n : BitVec 3) :
    exec (.dec rd ra false n) s = .next (s.setReg rd (s.reg ra - imm3 n)).advance := by
  have result : (s.subtract (s.reg ra) (imm3 n) false).result = s.reg ra - imm3 n := by simp [State.subtract, subOut_result]
  rw [← result]
  rfl

/-- The state behind SYSCALL; DEC LR, LR, #2; RETX LR (R293). -/
def afterHandler (s : State) : State :=
  State.transfer ((s.raiseTrap .systemCall).setReg .r7 ((s.raiseTrap .systemCall).reg .r7 - 2)).advance
    .r7 .exchange false false

theorem raiseTrap_inSystem (s : State) (k : Trap) : (s.raiseTrap k).inSystem = true := (raiseTrap_spec s k).mode

theorem raiseTrap_link (s : State) (k : Trap) : (s.raiseTrap k).reg .r7 = s.pc + 4 := by
  rw [State.reg, if_pos (raiseTrap_inSystem s k)]
  exact (raiseTrap_spec s k).link

/-- The handler runs in system mode, where RETX is allowed (R173, R290). -/
theorem handler_runs (s : State) (tag : BitVec 10) :
    ∃ t u, exec (.syscall tag) s = .next t ∧ exec (.dec .r7 .r7 false 2) t = .next u
      ∧ exec (.stpc .exchange .r7 false false) u = .next (afterHandler s) := by
  refine ⟨_, _, exec_syscall s tag, exec_dec_noFlags .., execStpc_allowed (.inl ?_) .r7 false⟩
  simp [raiseTrap_inSystem]

/-- The link of the call, two less, is the address of the next instruction (R291, R293). -/
theorem afterHandler_pc {s : State} (even : s.pc.getLsbD 0 = false) : (afterHandler s).pc = s.pc + 2 := by
  have target : (afterHandler s).pc = clearBit0 (s.pc + 4 - 2) := by
    rw [← raiseTrap_link s .systemCall]
    simp [afterHandler, transfer_spec]
  have next : s.pc + 4 - 2 = s.pc + 2 := by rw [add_sub_assoc]; rfl
  rw [target, next]
  refine BitVec.eq_of_getLsbD_eq fun i _ => ?_
  rw [clearBit0_getLsbD]
  by_cases hi : i = 0
  · subst hi; simpa using (even_add_two even).symm
  · simp [hi]

theorem afterHandler_banks (s : State) :
    (afterHandler s).usr = s.usr ∧ ∀ r, r ≠ .r7 → (afterHandler s).sys.get r = s.sys.get r := by
  have entered := raiseTrap_spec s .systemCall
  have mode := raiseTrap_inSystem s .systemCall
  refine ⟨?_, fun r hr => ?_⟩
  · simpa [afterHandler, transfer_spec, mode] using entered.usrBank
  · simpa [afterHandler, transfer_spec, mode, hr] using entered.sysBank r hr

/-- RETX undoes what trap entry did to M (R167, R290). -/
theorem afterHandler_msr (s : State) {i : Nat} (hgx : i ≠ 11) (hs : i ≠ 14) :
    (afterHandler s).msr.getLsbD i = s.msr.getLsbD i := by
  have entered := raiseTrap_spec s .systemCall
  have returned : (afterHandler s).msr = returnMsr (s.raiseTrap .systemCall).msr .exchange false := by
    simp [afterHandler, transfer_spec]
  rw [returned, returnMsr_getLsbD]
  by_cases hm : i = 15
  · rw [hm]
    exact entered.previous
  · rw [if_neg hm, if_neg hgx]
    exact entered.msr i hm hs hgx

theorem afterHandler_mmu (s : State) : (afterHandler s).mmu = s.trapMmu := by simp [afterHandler, transfer_spec]; rfl

/-- Settles O48: the state of `afterHandler`, field by field; its pages are those of the mode it returns to. -/
theorem trapReturn : Obligations.TrapReturn := by
  unfold Obligations.TrapReturn
  intro s tag even
  obtain ⟨t, u, call, dec, retx⟩ := handler_runs s tag
  obtain ⟨usr, sys⟩ := afterHandler_banks s
  have mode : (afterHandler s).inSystem = s.inSystem := afterHandler_msr s (by decide) (by decide)
  have iPage : (afterHandler s).iPage = if s.inSystem then s.mmu.irqBase else s.mmu.usrI := by
    rw [State.iPage, mode, afterHandler_mmu]; rfl
  have dPage : (afterHandler s).dPage = if s.inSystem then s.mmu.irqBase else s.mmu.usrD := by
    rw [State.dPage, mode, afterHandler_mmu]; rfl
  refine ⟨t, u, _, call, dec, retx, afterHandler_pc even, mode, usr, sys, fun i => afterHandler_msr s, fun h => ?_,
    fun h => ?_, fun system => ?_⟩
  · rw [iPage, State.iPage]
    rcases h with user | single
    · simp [user]
    · rw [single]
  · rw [dPage, State.dPage]
    rcases h with user | single
    · simp [user]
    · rw [single]
  · rw [iPage, dPage, if_pos system, if_pos system]
    exact ⟨rfl, rfl⟩

end Sys2Proof.Proofs
end

section
/-! PROOFS. The register map of the system coprocessor (O38 to O43). -/

namespace Sys2Proof.Proofs

open Sys2Proof.Machine Sys2Proof.Laws

/-! ## The three transactions in system mode -/

section
variable {s : State} (system : s.inSystem = true)
include system

theorem exec_mrc_read {u : State} {m r : BitVec 3} {v : Word} (h : s.sysRead m r = .ok (v, u)) (rd : Reg) :
    exec (.mrc .cp1 rd m r) s = .next (u.setReg rd v).advance := by
  have read : s.cpRead .cp1 rd.toBits m r = .ok (v, u) := h
  refine (if_pos system).trans ?_
  rw [read]

theorem exec_mrc_refused {m r : BitVec 3} {q : Refusal} (h : s.sysRead m r = .error q) (rd : Reg) :
    exec (.mrc .cp1 rd m r) s = .refused q := by
  have read : s.cpRead .cp1 rd.toBits m r = .error q := h
  refine (if_pos system).trans ?_
  rw [read]

theorem exec_mcr_written {u : State} {m r : BitVec 3} {ra : Reg} (h : s.sysWrite m r (s.reg ra) = .ok u) :
    exec (.mcr .cp1 m ra r) s = .next u.advance := by
  have written : s.cpWrite .cp1 m ra.toBits r (s.reg ra) = .ok u := h
  refine (if_pos system).trans ?_
  rw [written]

theorem exec_mcr_refused {m r : BitVec 3} {ra : Reg} {q : Refusal} (h : s.sysWrite m r (s.reg ra) = .error q) :
    exec (.mcr .cp1 m ra r) s = .refused q := by
  have written : s.cpWrite .cp1 m ra.toBits r (s.reg ra) = .error q := h
  refine (if_pos system).trans ?_
  rw [written]

theorem exec_cdp_taken {u : State} {ca cb cmd : BitVec 3} (h : s.cpCommand .cp1 ca cb cmd = .ok u) :
    exec (.cdp .cp1 ca cb cmd) s = .next u.advance := by
  refine (if_pos system).trans ?_
  rw [h]

theorem exec_cdp_refused {ca cb cmd : BitVec 3} {q : Refusal} (h : s.cpCommand .cp1 ca cb cmd = .error q) :
    exec (.cdp .cp1 ca cb cmd) s = .refused q := by
  refine (if_pos system).trans ?_
  rw [h]

/-- What MRC does in system mode: the read with its side effects, Rd and the next instruction (R241). -/
theorem mrc_spec {u : State} {m r : BitVec 3} {v : Word} (h : s.sysRead m r = .ok (v, u)) (rd : Reg) :
    ∃ t, exec (.mrc .cp1 rd m r) s = .next t ∧ t.reg rd = v ∧ t.pc = s.pc + 2 ∧ Frame u t [(true, rd)] [] := by
  have core := sysRead_core h
  obtain ⟨result, pc, frame⟩ := move_step u rd v
  rw [inSystem_of_msr core.msr, system] at frame
  exact ⟨_, exec_mrc_read system h rd, result, core.pc ▸ pc, frame⟩

/-- MRC from a register that a read changes in no way but by a draw (R241). -/
theorem mrc_move {m r : BitVec 3} {v : Word} {d : Nat} (h : s.sysRead m r = .ok (v, { s with draws := d })) (rd : Reg) :
    ∃ t, exec (.mrc .cp1 rd m r) s = .next t ∧ MoveStep s t rd v := by
  obtain ⟨t, step, result, pc, frame⟩ := mrc_spec system h rd
  rw [← system] at frame
  exact ⟨t, step, result, pc, frame_of_draws frame⟩

/-- What MCR does in system mode: the write with its side effects and the next instruction (R242). -/
theorem mcr_spec {u : State} {m r : BitVec 3} {ra : Reg} (h : s.sysWrite m r (s.reg ra) = .ok u) :
    ∃ t, exec (.mcr .cp1 m ra r) s = .next t ∧ t.pc = s.pc + 2 ∧ Frame u t [] [] :=
  ⟨_, exec_mcr_written system h, congrArg (· + 2) (sysWrite_core h).pc, (advance_spec u).2⟩

/-- What CDP does in system mode: the command of module c3 and the next instruction (R240). -/
theorem cdp_spec {u : State} {cmd : BitVec 3} (h : s.wishboneCommand cmd = .ok u) :
    ∃ t, exec (.cdp .cp1 3 3 cmd) s = .next t ∧ t.pc = s.pc + 2 ∧ Frame u t [] [] :=
  ⟨_, exec_cdp_taken system h, congrArg (· + 2) (wishboneCommand_core h).pc, (advance_spec u).2⟩

end

/-! ## Reads without side effects -/

/-- The registers that the map of R331 does not list read 0. -/
theorem sysRead_unlisted (s : State) {m r : BitVec 3} (h : (m = 0 ∧ r = 7) ∨ (m = 3 ∧ 6 ≤ r) ∨ 4 ≤ m) :
    s.sysRead m r = .ok (0, s) := by
  have numbers : (m.toNat = 0 ∧ r.toNat = 7) ∨ (m.toNat = 3 ∧ 6 ≤ r.toNat) ∨ 4 ≤ m.toNat := by bv_omega
  unfold State.sysRead
  split
  case h_30 => rfl
  all_goals omega

/-- spi_cs reads its byte below eight zeros (R331). -/
theorem sysRead_spiCs (s : State) : s.sysRead 2 4 = .ok (0#8 ++ s.spi.cs, s) := by
  have padded : s.spi.cs.zeroExtend 16 = 0#8 ++ s.spi.cs := BitVec.setWidth_eq_append (by decide)
  rw [← padded]
  rfl

/-- com_ctrl reads its stored bits and the two busy flags (R331, R373, R383). -/
theorem readComCtrl_getLsbD (s : State) {i : Nat} (hi : i < 16) :
    s.readComCtrl.getLsbD i
      = if i = 3 then s.spi.busy else if i = 5 then s.uart.txBusy else s.comCtrl.getLsbD i := by
  unfold State.readComCtrl bitSpiBusy bitUartBusy
  rw [getLsbD_setBit, getLsbD_setBit]
  by_cases h3 : i = 3
  · simp [h3]
  · simp [h3, hi]

/-- Settles O38: the map of R331 reads each of these registers from its field and leaves the state as it is. -/
theorem sysRegisterReads : Obligations.SysRegisterReads := by
  unfold Obligations.SysRegisterReads
  intro s rd m r v system h
  suffices read : s.sysRead m r = .ok (v, s) from mrc_move (d := s.draws) system read rd
  rcases h with listed | ⟨rfl, unlisted⟩ | ⟨rfl, rfl, bits⟩
  · refine (?_ : ∀ x ∈ _, s.sysRead x.1 x.2.1 = .ok (x.2.2, s)) (m, r, v) listed
    repeat' refine List.forall_mem_cons.2 ⟨rfl, ?_⟩
    refine List.forall_mem_cons.2 ⟨sysRead_spiCs s, ?_⟩
    repeat' refine List.forall_mem_cons.2 ⟨rfl, ?_⟩
    exact List.forall_mem_nil _
  · exact sysRead_unlisted s unlisted
  · have value : v = s.readComCtrl :=
      BitVec.eq_of_getLsbD_eq fun i hi => (bits i).trans (readComCtrl_getLsbD s hi).symm
    rw [value]
    rfl

/-! ## The read of irq_sm -/

/-- The pending channel with the smallest number (R335, R336). -/
theorem lowestSet_eq_some {p : BitVec 8} {ch : Nat} (hch : ch < 8) (pending : p.getLsbD ch = true)
    (below : ∀ j, j < ch → p.getLsbD j = false) : lowestSet p = some (BitVec.ofNat 3 ch) := by
  unfold lowestSet
  interval_cases ch <;> simp [pending, below, -BitVec.getLsbD_eq_getElem]

/-- A bit of the pending bits with the one of a channel cleared (R335). -/
theorem acknowledged_getLsbD (p : BitVec 8) {ch : Nat} (hch : ch < 8) (j : Nat) :
    (p &&& ~~~(1#8 <<< ch)).getLsbD j = (decide (j ≠ ch) && p.getLsbD j) := by
  by_cases hj : j < 8
  · have bit : (1#8 <<< ch).getLsbD j = decide (j = ch) := by
      rw [BitVec.getLsbD_shiftLeft, BitVec.getLsbD_one, Bool.eq_iff_iff]
      simp only [Bool.and_eq_true, Bool.not_eq_true', decide_eq_true_eq, decide_eq_false_iff_not]
      omega
    rw [BitVec.getLsbD_and, BitVec.getLsbD_not, bit, Bool.and_comm]
    simp [hj]
  · simp [BitVec.getLsbD_of_ge _ j (Nat.le_of_not_lt hj)]

/-- irq_sm shows the number of a channel in its low byte (R331). -/
theorem irqSmValue_ofNat (mask : BitVec 8) {ch : Nat} (hch : ch < 8) :
    irqSmValue mask (BitVec.ofNat 3 ch) = mask ++ BitVec.ofNat 8 ch := by
  have number : 0#5 ++ BitVec.ofNat 3 ch = BitVec.ofNat 8 ch := by interval_cases ch <;> rfl
  rw [irqSmValue, number]

/-- Settles O39: `State.readIrqSm` where a channel is pending (`lowestSet_eq_some`), and where none is. -/
theorem interruptAcknowledge : Obligations.InterruptAcknowledge := by
  unfold Obligations.InterruptAcknowledge
  intro s rd system
  refine ⟨fun ch hch pending below => ?_, fun none => ?_⟩
  · have read : s.sysRead 0 0 = .ok (s.irq.mask ++ BitVec.ofNat 8 ch,
        { s with irq := { s.irq with pend := s.irq.pend &&& ~~~(1#8 <<< ch) } }) := by
      have number : (BitVec.ofNat 3 ch).toNat = ch := by simp; omega
      show Except.ok s.readIrqSm = _
      rw [State.readIrqSm, lowestSet_eq_some hch pending below]
      simp only [irqSmValue_ofNat _ hch, number]
    obtain ⟨t, step, value, pc, frame⟩ := mrc_spec system read rd
    have irq := frame.devices.irq
    refine ⟨t, step, value, by rw [irq], by rw [irq], fun j => ?_, pc, irq ▸ frame⟩
    rw [irq]
    exact acknowledged_getLsbD s.irq.pend hch j
  · have read : s.sysRead 0 0 = .ok (irqSmValue s.irq.mask (Config.idleChannel s.draws), s.drawn) := by
      show Except.ok s.readIrqSm = _
      rw [State.readIrqSm, none]
      rfl
    obtain ⟨t, step, moved⟩ := mrc_move system read rd
    refine ⟨t, _, step, moved, BitVec.extractLsb'_append_eq_left, ?_⟩
    exact (BitVec.extractLsb'_append_eq_of_add_le (by decide)).trans BitVec.extractLsb'_append_eq_left

/-! ## Reads with side effects -/

theorem steps_poly (l : Lfsr) (k : Nat) : (l.steps k).poly = l.poly := by
  induction k with
  | zero => rfl
  | succ k ih => exact ih

/-- The LFSR brought up to now, and a draw where it runs free (R351). -/
theorem catchUpLfsr_eq (s : State) :
    ∃ k d, s.catchUpLfsr = { s with lfsr := s.lfsr.steps k, draws := d }
      ∧ (s.lfsr.poly.getLsbD 15 = false → s.catchUpLfsr = s) := by
  unfold State.catchUpLfsr Lfsr.freeRunning
  cases s.lfsr.poly.getLsbD 15 with
  | true => exact ⟨_, _, rfl, nofun⟩
  | false => exact ⟨0, s.draws, rfl, fun _ => rfl⟩

/-- MRC from lfsr_data: one step in read mode, an open number of steps in free-running mode (R350, R351). -/
theorem mrc_lfsr {s : State} (system : s.inSystem = true) (rd : Reg) :
    ∃ t, exec (.mrc .cp1 rd 0 5) s = .next t
      ∧ (s.lfsr.poly.getLsbD 15 = false → t.reg rd = s.lfsr.data
          ∧ t.lfsr.data = Config.lfsrNext s.lfsr.data (s.lfsr.poly.extractLsb' 0 15))
      ∧ (s.lfsr.poly.getLsbD 15 = true → t.reg rd = t.lfsr.data ∧ ∃ k, t.lfsr = s.lfsr.steps k)
      ∧ t.lfsr.poly = s.lfsr.poly ∧ t.pc = s.pc + 2 ∧ Frame { s with lfsr := t.lfsr } t [(true, rd)] [] := by
  have reads : s.sysRead 0 5 = .ok s.readLfsr := rfl
  cases mode : s.lfsr.poly.getLsbD 15 with
  | false =>
    have readMode : ¬s.lfsr.freeRunning = true := by rw [Lfsr.freeRunning, mode]; nofun
    have read : s.readLfsr = (s.lfsr.data, { s with lfsr := s.lfsr.step }) := if_neg readMode
    obtain ⟨t, step, value, pc, frame⟩ := mrc_spec system (reads.trans (congrArg _ read)) rd
    have lfsr : t.lfsr = s.lfsr.step := frame.devices.lfsr
    exact ⟨t, step, fun _ => ⟨value, by rw [lfsr]; rfl⟩, nofun, by rw [lfsr]; rfl, pc, lfsr ▸ frame⟩
  | true =>
    have read : s.readLfsr = (s.catchUpLfsr.lfsr.data, s.catchUpLfsr) := if_pos mode
    obtain ⟨k, d, caughtUp, _⟩ := catchUpLfsr_eq s
    rw [caughtUp] at read
    obtain ⟨t, step, value, pc, frame⟩ := mrc_spec system (reads.trans (congrArg _ read)) rd
    have lfsr : t.lfsr = s.lfsr.steps k := frame.devices.lfsr
    exact ⟨t, step, nofun, fun _ => ⟨by rw [lfsr]; exact value, k, lfsr⟩, by rw [lfsr]; exact steps_poly .., pc,
      lfsr ▸ frame_of_draws frame⟩

/-- The halves of CLK_SPEED, bit by bit (R367). -/
theorem readSysInfo_getLsbD (s : State) {i : Nat} (hi : i < 16) :
    s.readSysInfo.1.getLsbD i = s.params.clkSpeed.getLsbD (if s.mmu.infoSel then i else i + 16) := by
  unfold State.readSysInfo
  cases s.mmu.infoSel <;> simp [hi, Nat.add_comm, -BitVec.getLsbD_eq_getElem]

/-- ctrl as a word of its fields, from the burst size down (R405). -/
theorem wishbone_ctrl_eq (w : Wishbone) :
    w.ctrl = w.burst ++ BitVec.ofBool w.dir ++ BitVec.ofBool w.busy ++ BitVec.ofBool w.enTo ++ BitVec.ofBool w.enErr
      ++ BitVec.ofBool w.enDone ++ BitVec.ofBool w.fTo ++ BitVec.ofBool w.fErr ++ BitVec.ofBool w.fDone := by
  refine BitVec.eq_of_getLsbD_eq fun i hi => ?_
  simp only [Wishbone.ctrl, BitVec.getLsbD_append]
  interval_cases i <;> rfl

/-- A change of the adapter's registers by the core: channel 1 sees what it does to the line (R410). -/
theorem frame_setWishbone {s t : State} {w : Wishbone} {W : List (Bool × Reg)} (h : Frame (s.setWishbone w) t W []) :
    LineMoved s.irq t.irq 1 s.wb.line w.line ∧ Frame { s with wb := w, irq := t.irq } t W [] := by
  have irq := h.devices.irq
  exact ⟨by rw [irq]; exact lineChange_moved .., irq ▸ h⟩

section
variable {s : State} (free : s.wb.busy = false ∨ s.wb.dir = true) (usable : s.wb.aborted = false)
include free usable

theorem popRx_cons {w : Word} {ws : List Word} (h : s.wb.rx = w :: ws) :
    s.popRx = .ok (w, { s with wb := { s.wb with rx := ws } }) := by
  have noRead : (s.wb.busy && !s.wb.dir) = false := by rcases free with h | h <;> simp [h]
  simp [State.popRx, noRead, usable, h]

theorem popRx_nil (h : s.wb.rx = []) : s.popRx = .ok (Config.rxEmptyWord s.draws, s.drawn) := by
  have noRead : (s.wb.busy && !s.wb.dir) = false := by rcases free with h | h <;> simp [h]
  simp [State.popRx, noRead, usable, h]

end

/-- While the SPI is busy spi_data reads an open value (R383). -/
theorem readSpi_eq (s : State) : ∃ v d, s.readSpi = (v, { s with draws := d }) ∧ (s.spi.busy = false → v = s.spi.data) := by
  unfold State.readSpi
  cases s.spi.busy with
  | true => exact ⟨_, _, rfl, nofun⟩
  | false => exact ⟨_, s.draws, rfl, fun _ => rfl⟩

/-- Settles O40: `mrc_spec` for each of the reads. -/
theorem deviceReads : Obligations.DeviceReads := by
  unfold Obligations.DeviceReads
  intro s rd system
  refine ⟨mrc_lfsr system rd, ?info, ?uart, ?spi, ?ctrl, fun free usable => ⟨fun w ws h => ?_, fun h => ?_⟩⟩
  case info =>
    obtain ⟨t, step, value, pc, frame⟩ := mrc_spec system (rfl : s.sysRead 1 7 = .ok s.readSysInfo) rd
    exact ⟨t, step, fun i hi => value ▸ readSysInfo_getLsbD s hi, pc, frame⟩
  case uart =>
    obtain ⟨t, step, value, pc, frame⟩ := mrc_spec system (rfl : s.sysRead 2 0 = .ok s.readUart) rd
    refine ⟨t, step, value.trans ?_, pc, frame⟩
    rw [BitVec.append_assoc]
    rfl
  case spi =>
    obtain ⟨v, d, read, idle⟩ := readSpi_eq s
    obtain ⟨t, step, moved⟩ := mrc_move system ((rfl : s.sysRead 2 3 = .ok s.readSpi).trans (congrArg _ read)) rd
    exact ⟨t, v, step, moved, idle⟩
  case ctrl =>
    obtain ⟨t, step, value, pc, frame⟩ := mrc_spec system (rfl : s.sysRead 3 0 = .ok s.readWbCtrl) rd
    obtain ⟨line, frame⟩ := frame_setWishbone frame
    exact ⟨t, step, value.trans (wishbone_ctrl_eq s.wb), line, pc, frame⟩
  · exact mrc_spec system ((rfl : s.sysRead 3 4 = s.popRx).trans (popRx_cons free usable h)) rd
  · obtain ⟨t, step, moved⟩ := mrc_move system ((rfl : s.sysRead 3 4 = s.popRx).trans (popRx_nil free usable h)) rd
    exact ⟨t, _, step, moved⟩

/-! ## Writes that every state takes -/

/-- The registers that the map of R331 does not list ignore a write, those of c3 where no transfer is in progress (R402). -/
theorem sysWrite_unlisted {s : State} {m r : BitVec 3} (h : 4 ≤ m ∨ (m = 3 ∧ 6 ≤ r ∧ s.wb.busy = false)) (v : Word) :
    s.sysWrite m r v = .ok s := by
  have numbers : 4 ≤ m.toNat ∨ (m.toNat = 3 ∧ 6 ≤ r.toNat) := by bv_omega
  unfold State.sysWrite
  split
  case h_26 =>
    have idle : s.wb.busy = false := by
      rcases h with h | ⟨_, _, idle⟩
      · bv_omega
      · exact idle
    exact if_neg (by simp [idle])
  case h_27 => rfl
  all_goals omega

/-- A write of lfsr_poly leaves the data open where the LFSR runs free (R350, R351). -/
theorem mcr_lfsrPoly {s : State} (system : s.inSystem = true) (ra : Reg) :
    ∃ t, exec (.mcr .cp1 0 ra 6) s = .next t ∧ t.lfsr.poly = s.reg ra
      ∧ (s.lfsr.poly.getLsbD 15 = false → t.lfsr.data = s.lfsr.data)
      ∧ t.pc = s.pc + 2 ∧ Frame { s with lfsr := t.lfsr } t [] [] := by
  obtain ⟨t, step, pc, frame⟩ := mcr_spec system (rfl : s.sysWrite 0 6 (s.reg ra) = .ok (s.writeLfsrPoly (s.reg ra)))
  obtain ⟨k, d, caughtUp, readMode⟩ := catchUpLfsr_eq s
  have lfsr : t.lfsr = { s.catchUpLfsr.lfsr with poly := s.reg ra } := frame.devices.lfsr
  refine ⟨t, step, by rw [lfsr], fun mode => by rw [lfsr, readMode mode], pc, ?_⟩
  rw [State.writeLfsrPoly, caughtUp] at frame
  rw [lfsr, caughtUp]
  exact frame_of_draws frame

/-- Settles O41: `mcr_spec` for each of the registers of the list, the unlisted ones and lfsr_poly. -/
theorem sysRegisterWrites : Obligations.SysRegisterWrites := by
  unfold Obligations.SysRegisterWrites
  rintro s ra _ system rfl
  refine ⟨fun m r u h => ?_, mcr_lfsrPoly system ra⟩
  suffices written : s.sysWrite m r (s.reg ra) = .ok u from mcr_spec system written
  rcases h with listed | ⟨unlisted, rfl⟩ | ⟨module, unlisted, idle, rfl⟩
  · refine (?_ : ∀ x ∈ _, s.sysWrite x.1 x.2.1 (s.reg ra) = .ok x.2.2) (m, r, u) listed
    repeat' refine List.forall_mem_cons.2 ⟨rfl, ?_⟩
    exact List.forall_mem_nil _
  · exact sysWrite_unlisted (.inl unlisted) _
  · exact sysWrite_unlisted (.inr ⟨module, unlisted, idle⟩) _

/-! ## Writes and commands that the devices take -/

section
variable {s : State} (idle : s.wb.busy = false)
include idle

theorem wishbone_notBusy : ¬s.wb.busy = true := by simp [idle]

theorem wishboneCommand_read :
    s.wishboneCommand 0 =
      if s.params.wbFifoDepth < s.burstWords then .error .burstTooLong else .ok (s.startTransfer false) :=
  if_neg (wishbone_notBusy idle)

theorem wishboneCommand_write :
    s.wishboneCommand 1 =
      if s.params.wbFifoDepth < s.burstWords then .error .burstTooLong
      else if s.wb.aborted then .error .fifoAfterAbort
      else if s.wb.tx.length < s.burstWords then .error .txFifoShort
      else .ok (s.startTransfer true) :=
  if_neg (wishbone_notBusy idle)

theorem wishboneCommand_reserved {cmd : BitVec 3} (h : 2 ≤ cmd) : s.wishboneCommand cmd = .error .cdpReservedCommand := by
  have number : 2 ≤ cmd.toNat := h
  unfold State.wishboneCommand
  rw [if_neg (wishbone_notBusy idle)]
  split
  case h_3 => rfl
  all_goals omega

theorem pushTx_idle (v : Word) :
    s.pushTx v =
      if s.wb.aborted then .error .fifoAfterAbort
      else if s.params.wbFifoDepth ≤ s.wb.tx.length then .error .txFifoFull
      else .ok { s with wb := { s.wb with tx := s.wb.tx ++ [v] } } :=
  if_neg (wishbone_notBusy idle)

end

/-- The UART is activated by bit 6 of com_ctrl (R371). -/
theorem uartOn_eq (s : State) : s.uartOn = s.comCtrl.getLsbD 6 := rfl

/-- Settles O42: `mcr_spec` and `cdp_spec`, each where the device takes the transaction. -/
theorem deviceWrites : Obligations.DeviceWrites := by
  unfold Obligations.DeviceWrites
  rintro s ra _ system rfl
  refine ⟨fun idle r u h => ?spi, fun on idle => ?uart,
    fun idle => ⟨fun r w h => ?register, ?ctrl, fun usable room => ?push, ?command⟩⟩
  case spi =>
    have taken : ¬s.spi.busy = true := by simp [idle]
    suffices written : s.sysWrite 2 r (s.reg ra) = .ok u from mcr_spec system written
    refine (?_ : ∀ x ∈ _, s.sysWrite 2 x.1 (s.reg ra) = .ok x.2) (r, u) h
    repeat' refine List.forall_mem_cons.2 ⟨if_neg taken, ?_⟩
    exact List.forall_mem_nil _
  case uart =>
    have powered : ¬(!s.uartOn) = true := by rw [uartOn_eq, on]; nofun
    have taken : ¬s.uart.txBusy = true := by simp [idle]
    exact mcr_spec system ((if_neg powered).trans (if_neg taken))
  case register =>
    suffices written : s.sysWrite 3 r (s.reg ra) = .ok { s with wb := w } from mcr_spec system written
    refine (?_ : ∀ x ∈ _, s.sysWrite 3 x.1 (s.reg ra) = .ok { s with wb := x.2 }) (r, w) h
    repeat' refine List.forall_mem_cons.2 ⟨if_neg (wishbone_notBusy idle), ?_⟩
    exact List.forall_mem_nil _
  case ctrl =>
    have written : s.sysWrite 3 0 (s.reg ra) = .ok _ := if_neg (wishbone_notBusy idle)
    obtain ⟨t, step, pc, frame⟩ := mcr_spec system written
    have wb := frame.devices.wb
    obtain ⟨line, frame⟩ := frame_setWishbone frame
    exact ⟨t, step, pc, by rw [wb]; exact line, frame⟩
  case push =>
    refine mcr_spec system ((pushTx_idle idle _).trans ?_)
    rw [if_neg (by simp [usable]), if_neg (by omega)]
  case command =>
    rintro n rfl fits
    have fits : ¬s.params.wbFifoDepth < s.burstWords := Nat.not_lt.2 fits
    refine ⟨cdp_spec system ((wishboneCommand_read idle).trans (if_neg fits)), fun usable held => ?_⟩
    have held : ¬s.wb.tx.length < s.burstWords := Nat.not_lt.2 held
    refine cdp_spec system ((wishboneCommand_write idle).trans ?_)
    rw [if_neg fits, if_neg (by simp [usable]), if_neg held]
    rfl

/-! ## Where the devices refuse -/

/-- While a transfer is in progress every register of c3 refuses a write (R402). -/
theorem sysWrite_wishboneBusy {s : State} (busy : s.wb.busy = true) (r : BitVec 3) (v : Word) :
    s.sysWrite 3 r v = .error .wishboneBusy := by
  unfold State.sysWrite
  split
  case h_20 | h_21 | h_22 | h_23 | h_24 | h_25 | h_26 => exact if_pos busy
  all_goals contradiction

/-- Settles O43: each ground is the first check of its device that fails. -/
theorem deviceStops : Obligations.DeviceStops := by
  unfold Obligations.DeviceStops
  intro s rd ra n system hn
  obtain rfl : n = s.burstWords := hn
  have popRx : s.sysRead 3 4 = s.popRx := rfl
  refine ⟨fun ca cb cmd differ => ?_, fun m cmd other => ?_, fun off => ?_, fun on busy => ?_, fun busy r h => ?_,
    fun busy => ⟨fun r => ?_, fun cmd => ?_, fun reading => ?_⟩, fun idle aborted => ⟨?_, ?_⟩, fun idle usable full => ?_,
    fun idle => ⟨fun cmd reserved => ?_, fun long cmd listed => ?_, fun fits aborted => ?_, fun fits usable short => ?_⟩⟩
  · exact exec_cdp_refused system (if_pos differ)
  · exact exec_cdp_refused system ((if_neg (by simp)).trans (if_neg other))
  · exact exec_mcr_refused system (if_pos (by rw [uartOn_eq, off]; rfl))
  · exact exec_mcr_refused system ((if_neg (by rw [uartOn_eq, on]; nofun)).trans (if_pos busy))
  · refine exec_mcr_refused system ((?_ : ∀ x ∈ _, s.sysWrite 2 x (s.reg ra) = .error .spiBusy) r h)
    repeat' refine List.forall_mem_cons.2 ⟨if_pos busy, ?_⟩
    exact List.forall_mem_nil _
  · exact exec_mcr_refused system (sysWrite_wishboneBusy busy r _)
  · exact exec_cdp_refused system (if_pos busy)
  · exact exec_mrc_refused system (popRx.trans (if_pos (by rw [busy, reading]; rfl))) rd
  · exact exec_mrc_refused system (popRx.trans ((if_neg (by simp [idle])).trans (if_pos aborted))) rd
  · exact exec_mcr_refused system ((pushTx_idle idle _).trans (if_pos aborted))
  · refine exec_mcr_refused system ((pushTx_idle idle _).trans ?_)
    rw [if_neg (by simp [usable]), if_pos full]
  · exact exec_cdp_refused system (wishboneCommand_reserved idle reserved)
  · have transfer : cmd = 0 ∨ cmd = 1 := by bv_omega
    rcases transfer with rfl | rfl
    · exact exec_cdp_refused system ((wishboneCommand_read idle).trans (if_pos long))
    · exact exec_cdp_refused system ((wishboneCommand_write idle).trans (if_pos long))
  · refine exec_cdp_refused system ((wishboneCommand_write idle).trans ?_)
    rw [if_neg (Nat.not_lt.2 fits), if_pos aborted]
  · refine exec_cdp_refused system ((wishboneCommand_write idle).trans ?_)
    rw [if_neg (Nat.not_lt.2 fits), if_neg (by simp [usable]), if_pos short]

end Sys2Proof.Proofs
end

section
/-! PROOFS. The period of the timer (O57). -/

namespace Sys2Proof.Proofs

open Sys2Proof.Machine Sys2Proof.Laws

/-- A count that has reached the end of its period starts the next one, any other counts on. -/
theorem div_mod_succ (n : Nat) {d : Nat} (hd : 0 < d) :
    (n + 1) / d = (if n % d + 1 = d then n / d + 1 else n / d)
      ∧ (n + 1) % d = if n % d + 1 = d then 0 else n % d + 1 := by
  have parts := Nat.div_add_mod n d
  have below := Nat.mod_lt n hd
  rw [Nat.div_mod_unique hd]
  split
  · refine ⟨?_, hd⟩
    rw [Nat.mul_add]
    omega
  · exact ⟨by omega, by omega⟩

/-- The clock cycles of one count: the pre-counter runs through 0 to timer_prsc (R341). -/
def prescale (t : Timer) : Nat := t.prsc.toNat + 1

/-- How often the counter has counted on in `k` cycles from cleared counters. -/
def counts (t : Timer) (k : Nat) : Nat := k / prescale t

/-- The timer `k` cycles after its counters were cleared (R341). -/
def timerAfter (t : Timer) (k : Nat) : Timer :=
  { t with cnt := BitVec.ofNat 16 (counts t k % t.thr.toNat), pre := BitVec.ofNat 16 (k % prescale t) }

theorem prescale_pos (t : Timer) : 0 < prescale t := Nat.succ_pos _

theorem counts_succ (t : Timer) (k : Nat) :
    counts t (k + 1) = if k % prescale t + 1 = prescale t then counts t k + 1 else counts t k :=
  (div_mod_succ k (prescale_pos t)).1

/-- The pre-counter stands at timer_prsc in the last cycle of a count. -/
theorem timerAfter_pre_iff (t : Timer) (k : Nat) :
    (timerAfter t k).pre = (timerAfter t k).prsc ↔ k % prescale t + 1 = prescale t := by
  have below := Nat.mod_lt k (prescale_pos t)
  have bound := t.prsc.isLt
  show BitVec.ofNat 16 (k % prescale t) = t.prsc ↔ _
  rw [← BitVec.toNat_inj, BitVec.toNat_ofNat]
  unfold prescale at below ⊢
  rw [Nat.mod_eq_of_lt (by omega)]
  omega

theorem timerAfter_preCountedOn (t : Timer) (k : Nat) :
    preCountedOn (timerAfter t k) = (timerAfter t (k + 1)).pre := by
  have next := (div_mod_succ k (prescale_pos t)).2
  unfold preCountedOn
  show _ = BitVec.ofNat 16 ((k + 1) % prescale t)
  rw [next]
  by_cases last : k % prescale t + 1 = prescale t
  · rw [if_pos last, if_pos ((timerAfter_pre_iff t k).2 last)]
    rfl
  · rw [if_neg last, if_neg (mt (timerAfter_pre_iff t k).1 last)]
    exact (BitVec.ofNat_add ..).symm

/-- Before the match the counter stands one further in the last cycle of a count (R341). -/
theorem timerAfter_countedOn (t : Timer) (k : Nat) :
    countedOn (timerAfter t k) = BitVec.ofNat 16
      (if k % prescale t + 1 = prescale t then counts t k % t.thr.toNat + 1 else counts t k % t.thr.toNat) := by
  unfold countedOn
  by_cases last : k % prescale t + 1 = prescale t
  · rw [if_pos last, if_pos ((timerAfter_pre_iff t k).2 last)]
    exact (BitVec.ofNat_add ..).symm
  · rw [if_neg last, if_neg (mt (timerAfter_pre_iff t k).1 last)]
    rfl

theorem ofNat_eq_threshold {t : Timer} {n : Nat} (h : n ≤ t.thr.toNat) : BitVec.ofNat 16 n = t.thr ↔ n = t.thr.toNat := by
  have bound := t.thr.isLt
  rw [← BitVec.toNat_inj, BitVec.toNat_ofNat, Nat.mod_eq_of_lt (by omega)]

section
variable {t : Timer} (running : t.thr ≠ 0)
include running

theorem threshold_pos : 0 < t.thr.toNat :=
  Nat.pos_of_ne_zero fun h => running (BitVec.eq_of_toNat_eq h)

/-- One cycle further: the counters of the next cycle, and a pulse where a period of counts ends (R341, R343). -/
theorem timerAfter_cycle (k : Nat) :
    (timerAfter t k).cycle.1 = timerAfter t (k + 1)
      ∧ counts t k / t.thr.toNat + (timerAfter t k).cycle.2.toNat = counts t (k + 1) / t.thr.toNat := by
  have cycle := timer_cycle_running (t := timerAfter t k) running
  have below := Nat.mod_lt (counts t k) (threshold_pos running)
  obtain ⟨quotient, rest⟩ := div_mod_succ (counts t k) (threshold_pos running)
  rw [timerAfter_preCountedOn, timerAfter_countedOn, show (timerAfter t k).thr = t.thr from rfl] at cycle
  have next := counts_succ t k
  by_cases last : k % prescale t + 1 = prescale t
  · rw [if_pos last] at next
    simp only [if_pos last, ofNat_eq_threshold below] at cycle
    rw [cycle, next, quotient]
    by_cases full : counts t k % t.thr.toNat + 1 = t.thr.toNat <;> simp [timerAfter, full, next, rest]
  · rw [if_neg last] at next
    simp only [if_neg last, ofNat_eq_threshold below.le] at cycle
    rw [cycle, next]
    simp [timerAfter, below.ne, next]

/-- The timer from cleared counters: one pulse each time the counts fill the threshold (R341 to R343). -/
theorem timerRun_cleared (cnt : t.cnt = 0) (pre : t.pre = 0) (k : Nat) :
    timerRun k t = (timerAfter t k, counts t k / t.thr.toNat) := by
  induction k with
  | zero =>
    obtain ⟨_, _, _, _⟩ := t
    simp_all [timerRun, timerAfter, counts]
  | succ k ih =>
    obtain ⟨counters, pulses⟩ := timerAfter_cycle running k
    rw [← counters, ← pulses, timerRun, ih]

end

theorem timerRun_stopped {t : Timer} (stopped : t.thr = 0) (k : Nat) : timerRun k t = (t, 0) := by
  induction k with
  | zero => rfl
  | succ k ih => simp [timerRun, ih, timer_cycle_stopped stopped]

/-- Settles O57: the counters are remainders of the clock, by induction over the cycles. -/
theorem timerPeriod : Obligations.TimerPeriod := by
  intro t k
  refine ⟨fun stopped => timerRun_stopped stopped k, fun running cnt pre => ?_⟩
  rw [timerRun_cleared running cnt pre]
  exact Nat.div_div_eq_div_mul ..

end Sys2Proof.Proofs
end

section
/-! PROOFS. The bus transfers of the Wishbone adapter (O60). -/

namespace Sys2Proof.Proofs

open Sys2Proof.Machine Sys2Proof.Laws

/-- The bus address is the base plus so many signed offsets, modulo 2^32 (R403). -/
theorem address_eq_burstAddress (w : Wishbone) (i : Nat) : w.address i = BitVec.ofNat 32 (burstAddress w i) := by
  have base : w.baseH ++ w.baseL = BitVec.ofInt 32 ((w.baseH.toNat * 2 ^ 16 + w.baseL.toNat : Nat) : Int) := by
    rw [← doubleWord_toNat, BitVec.ofInt_natCast, BitVec.ofNat_toNat, BitVec.setWidth_eq]
  have index : BitVec.ofNat 32 i = BitVec.ofInt 32 (i : Int) := (BitVec.ofInt_natCast ..).symm
  unfold Wishbone.address
  rw [base, index, BitVec.signExtend, ← BitVec.ofInt_mul, ← BitVec.ofInt_add]
  apply BitVec.eq_of_toNat_eq
  unfold burstAddress
  rw [BitVec.toNat_ofInt, BitVec.toNat_ofNat]
  omega

/-! ## The acknowledged accesses -/

/-- Access number `i` from here of the transfer in progress, as the host sees it (R408). -/
def accessAt (s : State) (i : Nat) : HostOutput :=
  if s.wb.dir then .wishboneWrite (s.wb.address (s.wb.done + i)) (s.wb.tx.getD i 0)
  else .wishboneRead (s.wb.address (s.wb.done + i))

/-- The transfer in progress after the host has acknowledged one access with each of the words, before its end (R408). -/
def afterAccesses (s : State) (ws : List Word) : State :=
  { s with
    wb := { s.wb with
      tx := if s.wb.dir then s.wb.tx.drop ws.length else s.wb.tx
      rx := if s.wb.dir then s.wb.rx else s.wb.rx ++ ws
      left := s.wb.left - ws.length
      done := s.wb.done + ws.length }
    record := s.record ++ (List.range ws.length).map (accessAt s) }

theorem wishboneAccess_eq (s : State) : s.wishboneAccess = accessAt s 0 := by
  unfold State.wishboneAccess accessAt
  rw [List.headD_eq_head?_getD, List.getD_eq_getElem?_getD, List.head?_eq_getElem?, Nat.add_zero]

/-- The later accesses are numbered from the first. -/
theorem accessAt_afterAccesses (s : State) (w : Word) (i : Nat) :
    accessAt (afterAccesses s [w]) i = accessAt s (i + 1) := by
  have number : s.wb.done + 1 + i = s.wb.done + (i + 1) := by omega
  show (if s.wb.dir then
      HostOutput.wishboneWrite (s.wb.address (s.wb.done + 1 + i)) ((if s.wb.dir then s.wb.tx.drop 1 else s.wb.tx).getD i 0)
    else .wishboneRead (s.wb.address (s.wb.done + 1 + i))) = _
  rw [number]
  unfold accessAt
  cases s.wb.dir <;> simp

theorem afterAccesses_cons (s : State) (w : Word) (ws : List Word) :
    afterAccesses s (w :: ws) = afterAccesses (afterAccesses s [w]) ws := by
  have done : s.wb.done + (ws.length + 1) = s.wb.done + 1 + ws.length := by omega
  have left : s.wb.left - (ws.length + 1) = s.wb.left - 1 - ws.length := by omega
  have record : (List.range (ws.length + 1)).map (accessAt s)
      = accessAt s 0 :: (List.range ws.length).map (accessAt (afterAccesses s [w])) := by
    simp [List.range_succ_eq_map, Function.comp_def, accessAt_afterAccesses]
  unfold afterAccesses at *
  cases dir : s.wb.dir <;> simp_all

section
variable {s : State} (busy : s.wb.busy = true) (more : s.wb.left ≠ 0)
include busy more

/-- An acknowledged access moves one word, where the RX FIFO has room for it (R408). -/
theorem wishboneReply_ack (w : Word) (room : s.wb.dir = false → s.wb.rx.length < s.params.wbFifoDepth) :
    s.wishboneReply (.ack w) = (afterAccesses s [w]).finishIfDone := by
  have moved : (s.emit s.wishboneAccess).moveWord w = afterAccesses s [w] := by
    rw [wishboneAccess_eq]
    unfold State.moveWord afterAccesses
    cases dir : s.wb.dir with
    | false => simp [dir, State.pushRx, State.emit, room dir]
    | true => simp [dir, State.emit]
  unfold State.wishboneReply
  rw [if_pos busy, if_neg more]
  exact congrArg State.finishIfDone moved

end

/-- The last acknowledged access ends the transfer with done (R408). -/
theorem acknowledge_all {s : State} {ws : List Word} (busy : s.wb.busy = true) (left : s.wb.left = ws.length)
    (nonempty : ws ≠ []) (room : s.wb.dir = false → s.wb.rx.length + ws.length ≤ s.params.wbFifoDepth) :
    acknowledge s ws = (afterAccesses s ws).completeTransfer := by
  induction ws generalizing s with
  | nil => exact absurd rfl nonempty
  | cons w ws ih =>
    have length : (w :: ws).length = ws.length + 1 := rfl
    have rest : (afterAccesses s [w]).wb.left = ws.length := by
      show s.wb.left - 1 = _
      omega
    rw [acknowledge, wishboneReply_ack busy (by omega) w fun read => by have := room read; omega]
    unfold State.finishIfDone
    cases ws with
    | nil => exact if_pos rest
    | cons v vs =>
      rw [if_neg (by rw [rest]; exact Nat.succ_ne_zero _), afterAccesses_cons s w (v :: vs)]
      refine ih (s := afterAccesses s [w]) busy rest (List.cons_ne_nil _ _) fun read => ?_
      have bound := room read
      show (if s.wb.dir then s.wb.rx else s.wb.rx ++ [w]).length + _ ≤ s.params.wbFifoDepth
      rw [if_neg (by rw [show s.wb.dir = false from read]; exact Bool.false_ne_true), List.length_append]
      simp at bound ⊢
      omega

/-- The accesses of a transfer from its command on are numbered from 0 (R408). -/
theorem accessAt_startTransfer (s : State) (write : Bool) (i : Nat) :
    accessAt (s.startTransfer write).advance i =
      if write then .wishboneWrite (BitVec.ofNat 32 (burstAddress s.wb i)) (s.wb.tx.getD i 0)
      else .wishboneRead (BitVec.ofNat 32 (burstAddress s.wb i)) := by
  have first : (s.startTransfer write).advance.wb.done + i = i := Nat.zero_add i
  rw [← address_eq_burstAddress]
  unfold accessAt
  rw [first]
  rfl

/-- What a whole transfer of acknowledged accesses leaves behind (R408, R410). -/
structure Transferred (s t : State) (write : Bool) (ws : List Word) : Prop where
  tx : t.wb.tx = if write then s.wb.tx.drop ws.length else s.wb.tx
  rx : t.wb.rx = if write then s.wb.rx else s.wb.rx ++ ws
  done : t.wb.fDone = true
  idle : t.wb.busy = false
  line : LineMoved s.irq t.irq 1 s.wb.line t.wb.line
  record : t.record = s.record ++ (List.range ws.length).map fun i =>
    if write then .wishboneWrite (BitVec.ofNat 32 (burstAddress s.wb i)) (s.wb.tx.getD i 0)
    else .wishboneRead (BitVec.ofNat 32 (burstAddress s.wb i))

theorem transfer_acknowledged {s : State} {write : Bool} {ws : List Word} (length : ws.length = s.burstWords)
    (nonempty : 1 ≤ ws.length) (room : write = false → s.wb.rx.length + ws.length ≤ s.params.wbFifoDepth) :
    Transferred s (acknowledge (s.startTransfer write).advance ws) write ws := by
  rw [acknowledge_all rfl length.symm (List.ne_nil_of_length_pos nonempty) room]
  refine ⟨rfl, rfl, rfl, rfl, lineChange_moved .., ?_⟩
  exact congrArg (s.record ++ ·) (List.map_congr_left fun i _ => accessAt_startTransfer s write i)

/-- A transfer command that is not refused starts the transfer (R404, R408). -/
theorem wishboneCommand_starts {s u : State} {cmd : BitVec 3} (h : s.wishboneCommand cmd = .ok u) :
    u = s.startTransfer (decide (cmd.toNat = 1)) := by
  unfold State.wishboneCommand at h
  split at h
  · contradiction
  split at h
  case h_1 zero =>
    split at h <;> cases h
    simp [zero]
  case h_2 one =>
    split at h <;> [contradiction; split at h] <;> [contradiction; split at h] <;> cases h
    simp [one]
  case h_3 => contradiction

theorem exec_transferCommand {s t : State} {cmd : BitVec 3} (system : s.inSystem = true)
    (step : exec (.cdp .cp1 3 3 cmd) s = .next t) : t = (s.startTransfer (decide (cmd.toNat = 1))).advance := by
  cases started : s.cpCommand .cp1 3 3 cmd with
  | error q => cases (exec_cdp_refused system started).symm.trans step
  | ok u =>
    cases (exec_cdp_taken system started).symm.trans step
    rw [wishboneCommand_starts started]

/-! ## The end by an error or a timeout -/

/-- The host sees the access that fails, with its bus address (R403, R408). -/
theorem wishboneAccess_burstAddress (s : State) :
    s.wishboneAccess =
      if s.wb.dir then .wishboneWrite (BitVec.ofNat 32 (burstAddress s.wb s.wb.done)) (s.wb.tx.headD 0)
      else .wishboneRead (BitVec.ofNat 32 (burstAddress s.wb s.wb.done)) := by
  rw [← address_eq_burstAddress]
  rfl

/-- A failed access ends the transfer with the flag of its cause (R408, R409). -/
theorem wishboneReply_failed {s : State} (busy : s.wb.busy = true) (more : s.wb.left ≠ 0) {r : WbReply}
    (failed : r = .err ∨ r = .timeout) :
    s.wishboneReply r = (s.emit s.wishboneAccess).abortTransfer
      { s.wb with fErr := s.wb.fErr || decide (r = .err), fTo := s.wb.fTo || decide (r = .timeout) } := by
  unfold State.wishboneReply
  rw [if_pos busy, if_neg more]
  obtain rfl | rfl := failed <;> simp [State.emit]

/-- Settles O60: the acknowledged accesses by induction over the words, the failed one by its own equation. -/
theorem wishboneBurst : Obligations.WishboneBurst := by
  unfold Obligations.WishboneBurst
  refine ⟨fun s t ws n system idle usable words nonempty length => ⟨fun step room => ?_, fun step => ?_⟩, ?_⟩
  · obtain rfl := exec_transferCommand system step
    obtain ⟨tx, rx, done, idle, line, record⟩ :=
      transfer_acknowledged (write := false) (length.trans words) (length ▸ nonempty) fun _ => length.symm ▸ room
    exact ⟨rx, tx, done, idle, line, length ▸ record⟩
  · obtain rfl := exec_transferCommand system step
    obtain ⟨tx, rx, done, idle, line, record⟩ :=
      transfer_acknowledged (write := true) (length.trans words) (length ▸ nonempty) nofun
    exact ⟨length ▸ tx, rx, done, idle, line, length ▸ record⟩
  · rintro s t r runs busy more failed rfl
    rw [show agentAct (.wishbone r) s = s.wishboneReply r from whenClocked_of_clocked runs _,
      wishboneReply_failed busy more failed, wishboneAccess_burstAddress]
    exact ⟨rfl, rfl, rfl, rfl, rfl, rfl, rfl, rfl, rfl, lineChange_moved .., rfl, rfl, frame_of_draws (frame_refl _ _ _)⟩

end Sys2Proof.Proofs
end
